-- ==== Sys2Proof/Word.lean ====
section
/-! DEFINITION. The two word types of the machine: the byte every register but PC and every bus access holds, and the
16-bit bus address (00_scope R6, R8). -/

namespace Sys2Proof

/-- A byte: 8 bits, unsigned unless a rule sign-extends it (00_scope R8). -/
abbrev Byte := BitVec 8

/-- A word: the 16-bit bus address and the program counter (00_scope R6). -/
abbrev Addr := BitVec 16

end Sys2Proof
end

