-- ==== Sys2Proof/Syntax.lean ====
section
/-! DEFINITION. The instruction set as data: the addressing modes (30_encoding R91), the operand an instruction carries,
and the ONE inductive `Instr` with one constructor per row of spec/opcode_table.json (30_encoding R104). -/

namespace Sys2Proof

/-- The thirteen addressing modes of 30_encoding R91. -/
inductive Mode where
  | imp | acc | imm | zp | zpx | zpy | abs | absx | absy | indx | indy | ind | rel
  deriving DecidableEq, Repr, Inhabited

/-- An addressing mode together with the operand it carries (30_encoding R91).
A branch carries its signed displacement, -128 to +127 (30_encoding R100). -/
inductive Operand where
  | imp
  | acc
  | imm (v : Byte)
  | zp (b : Byte)
  | zpx (b : Byte)
  | zpy (b : Byte)
  | abs (w : Addr)
  | absx (w : Addr)
  | absy (w : Addr)
  | indx (b : Byte)
  | indy (b : Byte)
  | ind (w : Addr)
  | rel (d : Int)
  deriving DecidableEq, Repr, Inhabited

/-- The 56 operations of the opcode table (30_encoding R104, column mnemonic). -/
inductive Op where
  | lda | ldx | ldy | sta | stx | sty | tax | tay
  | tsx | txa | txs | tya | pha | php | pla | plp
  | and | ora | eor | bit | adc | sbc | cmp | cpx
  | cpy | inc | dec | inx | iny | dex | dey | asl
  | lsr | rol | ror | bpl | bmi | bvc | bvs | bcc
  | bcs | bne | beq | jmp | jsr | rts | rti | brk
  | nop | clc | sec | cli | sei | cld | sed | clv
  deriving DecidableEq, Repr, Inhabited

/-- One entry of the static instruction table (10_state R29): operation, addressing mode, base cycle cost and
whether a page cross costs one more cycle. The byte length is the mode's (30_encoding R90). -/
structure TableRow where
  op : Op
  mode : Mode
  base : Nat
  penalty : Bool
  deriving DecidableEq, Repr, Inhabited

/-- One constructor per row of spec/opcode_table.json, in the order of the section files 41 to 45. -/
inductive Instr where
  | ldaImm (v : Byte)
  | ldaZp (b : Byte)
  | ldaZpx (b : Byte)
  | ldaAbs (w : Addr)
  | ldaAbsx (w : Addr)
  | ldaAbsy (w : Addr)
  | ldaIndx (b : Byte)
  | ldaIndy (b : Byte)
  | ldxImm (v : Byte)
  | ldxZp (b : Byte)
  | ldxZpy (b : Byte)
  | ldxAbs (w : Addr)
  | ldxAbsy (w : Addr)
  | ldyImm (v : Byte)
  | ldyZp (b : Byte)
  | ldyZpx (b : Byte)
  | ldyAbs (w : Addr)
  | ldyAbsx (w : Addr)
  | staZp (b : Byte)
  | staZpx (b : Byte)
  | staAbs (w : Addr)
  | staAbsx (w : Addr)
  | staAbsy (w : Addr)
  | staIndx (b : Byte)
  | staIndy (b : Byte)
  | stxZp (b : Byte)
  | stxZpy (b : Byte)
  | stxAbs (w : Addr)
  | styZp (b : Byte)
  | styZpx (b : Byte)
  | styAbs (w : Addr)
  | tax
  | tay
  | tsx
  | txa
  | txs
  | tya
  | pha
  | php
  | pla
  | plp
  | andImm (v : Byte)
  | andZp (b : Byte)
  | andZpx (b : Byte)
  | andAbs (w : Addr)
  | andAbsx (w : Addr)
  | andAbsy (w : Addr)
  | andIndx (b : Byte)
  | andIndy (b : Byte)
  | oraImm (v : Byte)
  | oraZp (b : Byte)
  | oraZpx (b : Byte)
  | oraAbs (w : Addr)
  | oraAbsx (w : Addr)
  | oraAbsy (w : Addr)
  | oraIndx (b : Byte)
  | oraIndy (b : Byte)
  | eorImm (v : Byte)
  | eorZp (b : Byte)
  | eorZpx (b : Byte)
  | eorAbs (w : Addr)
  | eorAbsx (w : Addr)
  | eorAbsy (w : Addr)
  | eorIndx (b : Byte)
  | eorIndy (b : Byte)
  | bitZp (b : Byte)
  | bitAbs (w : Addr)
  | adcImm (v : Byte)
  | adcZp (b : Byte)
  | adcZpx (b : Byte)
  | adcAbs (w : Addr)
  | adcAbsx (w : Addr)
  | adcAbsy (w : Addr)
  | adcIndx (b : Byte)
  | adcIndy (b : Byte)
  | sbcImm (v : Byte)
  | sbcZp (b : Byte)
  | sbcZpx (b : Byte)
  | sbcAbs (w : Addr)
  | sbcAbsx (w : Addr)
  | sbcAbsy (w : Addr)
  | sbcIndx (b : Byte)
  | sbcIndy (b : Byte)
  | cmpImm (v : Byte)
  | cmpZp (b : Byte)
  | cmpZpx (b : Byte)
  | cmpAbs (w : Addr)
  | cmpAbsx (w : Addr)
  | cmpAbsy (w : Addr)
  | cmpIndx (b : Byte)
  | cmpIndy (b : Byte)
  | cpxImm (v : Byte)
  | cpxZp (b : Byte)
  | cpxAbs (w : Addr)
  | cpyImm (v : Byte)
  | cpyZp (b : Byte)
  | cpyAbs (w : Addr)
  | incZp (b : Byte)
  | incZpx (b : Byte)
  | incAbs (w : Addr)
  | incAbsx (w : Addr)
  | decZp (b : Byte)
  | decZpx (b : Byte)
  | decAbs (w : Addr)
  | decAbsx (w : Addr)
  | inx
  | iny
  | dex
  | dey
  | aslAcc
  | aslZp (b : Byte)
  | aslZpx (b : Byte)
  | aslAbs (w : Addr)
  | aslAbsx (w : Addr)
  | lsrAcc
  | lsrZp (b : Byte)
  | lsrZpx (b : Byte)
  | lsrAbs (w : Addr)
  | lsrAbsx (w : Addr)
  | rolAcc
  | rolZp (b : Byte)
  | rolZpx (b : Byte)
  | rolAbs (w : Addr)
  | rolAbsx (w : Addr)
  | rorAcc
  | rorZp (b : Byte)
  | rorZpx (b : Byte)
  | rorAbs (w : Addr)
  | rorAbsx (w : Addr)
  | bpl (d : Int)
  | bmi (d : Int)
  | bvc (d : Int)
  | bvs (d : Int)
  | bcc (d : Int)
  | bcs (d : Int)
  | bne (d : Int)
  | beq (d : Int)
  | jmpAbs (w : Addr)
  | jmpInd (w : Addr)
  | jsr (w : Addr)
  | rts
  | rti
  | brk
  | nop
  | clc
  | sec
  | cli
  | sei
  | cld
  | sed
  | clv
  deriving DecidableEq, Repr, Inhabited

/-- The operation of an instruction (30_encoding R104, column mnemonic). -/
def Instr.op : Instr → Op
  | .ldaImm _ => .lda
  | .ldaZp _ => .lda
  | .ldaZpx _ => .lda
  | .ldaAbs _ => .lda
  | .ldaAbsx _ => .lda
  | .ldaAbsy _ => .lda
  | .ldaIndx _ => .lda
  | .ldaIndy _ => .lda
  | .ldxImm _ => .ldx
  | .ldxZp _ => .ldx
  | .ldxZpy _ => .ldx
  | .ldxAbs _ => .ldx
  | .ldxAbsy _ => .ldx
  | .ldyImm _ => .ldy
  | .ldyZp _ => .ldy
  | .ldyZpx _ => .ldy
  | .ldyAbs _ => .ldy
  | .ldyAbsx _ => .ldy
  | .staZp _ => .sta
  | .staZpx _ => .sta
  | .staAbs _ => .sta
  | .staAbsx _ => .sta
  | .staAbsy _ => .sta
  | .staIndx _ => .sta
  | .staIndy _ => .sta
  | .stxZp _ => .stx
  | .stxZpy _ => .stx
  | .stxAbs _ => .stx
  | .styZp _ => .sty
  | .styZpx _ => .sty
  | .styAbs _ => .sty
  | .tax => .tax
  | .tay => .tay
  | .tsx => .tsx
  | .txa => .txa
  | .txs => .txs
  | .tya => .tya
  | .pha => .pha
  | .php => .php
  | .pla => .pla
  | .plp => .plp
  | .andImm _ => .and
  | .andZp _ => .and
  | .andZpx _ => .and
  | .andAbs _ => .and
  | .andAbsx _ => .and
  | .andAbsy _ => .and
  | .andIndx _ => .and
  | .andIndy _ => .and
  | .oraImm _ => .ora
  | .oraZp _ => .ora
  | .oraZpx _ => .ora
  | .oraAbs _ => .ora
  | .oraAbsx _ => .ora
  | .oraAbsy _ => .ora
  | .oraIndx _ => .ora
  | .oraIndy _ => .ora
  | .eorImm _ => .eor
  | .eorZp _ => .eor
  | .eorZpx _ => .eor
  | .eorAbs _ => .eor
  | .eorAbsx _ => .eor
  | .eorAbsy _ => .eor
  | .eorIndx _ => .eor
  | .eorIndy _ => .eor
  | .bitZp _ => .bit
  | .bitAbs _ => .bit
  | .adcImm _ => .adc
  | .adcZp _ => .adc
  | .adcZpx _ => .adc
  | .adcAbs _ => .adc
  | .adcAbsx _ => .adc
  | .adcAbsy _ => .adc
  | .adcIndx _ => .adc
  | .adcIndy _ => .adc
  | .sbcImm _ => .sbc
  | .sbcZp _ => .sbc
  | .sbcZpx _ => .sbc
  | .sbcAbs _ => .sbc
  | .sbcAbsx _ => .sbc
  | .sbcAbsy _ => .sbc
  | .sbcIndx _ => .sbc
  | .sbcIndy _ => .sbc
  | .cmpImm _ => .cmp
  | .cmpZp _ => .cmp
  | .cmpZpx _ => .cmp
  | .cmpAbs _ => .cmp
  | .cmpAbsx _ => .cmp
  | .cmpAbsy _ => .cmp
  | .cmpIndx _ => .cmp
  | .cmpIndy _ => .cmp
  | .cpxImm _ => .cpx
  | .cpxZp _ => .cpx
  | .cpxAbs _ => .cpx
  | .cpyImm _ => .cpy
  | .cpyZp _ => .cpy
  | .cpyAbs _ => .cpy
  | .incZp _ => .inc
  | .incZpx _ => .inc
  | .incAbs _ => .inc
  | .incAbsx _ => .inc
  | .decZp _ => .dec
  | .decZpx _ => .dec
  | .decAbs _ => .dec
  | .decAbsx _ => .dec
  | .inx => .inx
  | .iny => .iny
  | .dex => .dex
  | .dey => .dey
  | .aslAcc => .asl
  | .aslZp _ => .asl
  | .aslZpx _ => .asl
  | .aslAbs _ => .asl
  | .aslAbsx _ => .asl
  | .lsrAcc => .lsr
  | .lsrZp _ => .lsr
  | .lsrZpx _ => .lsr
  | .lsrAbs _ => .lsr
  | .lsrAbsx _ => .lsr
  | .rolAcc => .rol
  | .rolZp _ => .rol
  | .rolZpx _ => .rol
  | .rolAbs _ => .rol
  | .rolAbsx _ => .rol
  | .rorAcc => .ror
  | .rorZp _ => .ror
  | .rorZpx _ => .ror
  | .rorAbs _ => .ror
  | .rorAbsx _ => .ror
  | .bpl _ => .bpl
  | .bmi _ => .bmi
  | .bvc _ => .bvc
  | .bvs _ => .bvs
  | .bcc _ => .bcc
  | .bcs _ => .bcs
  | .bne _ => .bne
  | .beq _ => .beq
  | .jmpAbs _ => .jmp
  | .jmpInd _ => .jmp
  | .jsr _ => .jsr
  | .rts => .rts
  | .rti => .rti
  | .brk => .brk
  | .nop => .nop
  | .clc => .clc
  | .sec => .sec
  | .cli => .cli
  | .sei => .sei
  | .cld => .cld
  | .sed => .sed
  | .clv => .clv

/-- The operand of an instruction, which names its addressing mode (30_encoding R104, column mode). -/
def Instr.operand : Instr → Operand
  | .ldaImm v => .imm v
  | .ldaZp b => .zp b
  | .ldaZpx b => .zpx b
  | .ldaAbs w => .abs w
  | .ldaAbsx w => .absx w
  | .ldaAbsy w => .absy w
  | .ldaIndx b => .indx b
  | .ldaIndy b => .indy b
  | .ldxImm v => .imm v
  | .ldxZp b => .zp b
  | .ldxZpy b => .zpy b
  | .ldxAbs w => .abs w
  | .ldxAbsy w => .absy w
  | .ldyImm v => .imm v
  | .ldyZp b => .zp b
  | .ldyZpx b => .zpx b
  | .ldyAbs w => .abs w
  | .ldyAbsx w => .absx w
  | .staZp b => .zp b
  | .staZpx b => .zpx b
  | .staAbs w => .abs w
  | .staAbsx w => .absx w
  | .staAbsy w => .absy w
  | .staIndx b => .indx b
  | .staIndy b => .indy b
  | .stxZp b => .zp b
  | .stxZpy b => .zpy b
  | .stxAbs w => .abs w
  | .styZp b => .zp b
  | .styZpx b => .zpx b
  | .styAbs w => .abs w
  | .tax => .imp
  | .tay => .imp
  | .tsx => .imp
  | .txa => .imp
  | .txs => .imp
  | .tya => .imp
  | .pha => .imp
  | .php => .imp
  | .pla => .imp
  | .plp => .imp
  | .andImm v => .imm v
  | .andZp b => .zp b
  | .andZpx b => .zpx b
  | .andAbs w => .abs w
  | .andAbsx w => .absx w
  | .andAbsy w => .absy w
  | .andIndx b => .indx b
  | .andIndy b => .indy b
  | .oraImm v => .imm v
  | .oraZp b => .zp b
  | .oraZpx b => .zpx b
  | .oraAbs w => .abs w
  | .oraAbsx w => .absx w
  | .oraAbsy w => .absy w
  | .oraIndx b => .indx b
  | .oraIndy b => .indy b
  | .eorImm v => .imm v
  | .eorZp b => .zp b
  | .eorZpx b => .zpx b
  | .eorAbs w => .abs w
  | .eorAbsx w => .absx w
  | .eorAbsy w => .absy w
  | .eorIndx b => .indx b
  | .eorIndy b => .indy b
  | .bitZp b => .zp b
  | .bitAbs w => .abs w
  | .adcImm v => .imm v
  | .adcZp b => .zp b
  | .adcZpx b => .zpx b
  | .adcAbs w => .abs w
  | .adcAbsx w => .absx w
  | .adcAbsy w => .absy w
  | .adcIndx b => .indx b
  | .adcIndy b => .indy b
  | .sbcImm v => .imm v
  | .sbcZp b => .zp b
  | .sbcZpx b => .zpx b
  | .sbcAbs w => .abs w
  | .sbcAbsx w => .absx w
  | .sbcAbsy w => .absy w
  | .sbcIndx b => .indx b
  | .sbcIndy b => .indy b
  | .cmpImm v => .imm v
  | .cmpZp b => .zp b
  | .cmpZpx b => .zpx b
  | .cmpAbs w => .abs w
  | .cmpAbsx w => .absx w
  | .cmpAbsy w => .absy w
  | .cmpIndx b => .indx b
  | .cmpIndy b => .indy b
  | .cpxImm v => .imm v
  | .cpxZp b => .zp b
  | .cpxAbs w => .abs w
  | .cpyImm v => .imm v
  | .cpyZp b => .zp b
  | .cpyAbs w => .abs w
  | .incZp b => .zp b
  | .incZpx b => .zpx b
  | .incAbs w => .abs w
  | .incAbsx w => .absx w
  | .decZp b => .zp b
  | .decZpx b => .zpx b
  | .decAbs w => .abs w
  | .decAbsx w => .absx w
  | .inx => .imp
  | .iny => .imp
  | .dex => .imp
  | .dey => .imp
  | .aslAcc => .acc
  | .aslZp b => .zp b
  | .aslZpx b => .zpx b
  | .aslAbs w => .abs w
  | .aslAbsx w => .absx w
  | .lsrAcc => .acc
  | .lsrZp b => .zp b
  | .lsrZpx b => .zpx b
  | .lsrAbs w => .abs w
  | .lsrAbsx w => .absx w
  | .rolAcc => .acc
  | .rolZp b => .zp b
  | .rolZpx b => .zpx b
  | .rolAbs w => .abs w
  | .rolAbsx w => .absx w
  | .rorAcc => .acc
  | .rorZp b => .zp b
  | .rorZpx b => .zpx b
  | .rorAbs w => .abs w
  | .rorAbsx w => .absx w
  | .bpl d => .rel d
  | .bmi d => .rel d
  | .bvc d => .rel d
  | .bvs d => .rel d
  | .bcc d => .rel d
  | .bcs d => .rel d
  | .bne d => .rel d
  | .beq d => .rel d
  | .jmpAbs w => .abs w
  | .jmpInd w => .ind w
  | .jsr w => .abs w
  | .rts => .imp
  | .rti => .imp
  | .brk => .imp
  | .nop => .imp
  | .clc => .imp
  | .sec => .imp
  | .cli => .imp
  | .sei => .imp
  | .cld => .imp
  | .sed => .imp
  | .clv => .imp

end Sys2Proof
end

