-- ==== Sys2Proof/WellFormed.lean ====
section
/-! DEFINITION. Which instruction terms stand for an encoding. Every operand but a branch displacement has exactly the
width of its operand bytes, so the one check is the displacement's range (30_encoding R100, R110). -/

namespace Sys2Proof

/-- An operand fits its operand bytes: a displacement lies in -128 to +127 (30_encoding R100, R110). -/
def Operand.fits : Operand → Bool
  | .imp => true
  | .acc => true
  | .imm _ => true
  | .zp _ => true
  | .zpx _ => true
  | .zpy _ => true
  | .abs _ => true
  | .absx _ => true
  | .absy _ => true
  | .indx _ => true
  | .indy _ => true
  | .ind _ => true
  | .rel d => decide (-128 ≤ d ∧ d ≤ 127)

/-- An instruction is well formed when its operand fits its operand bytes. -/
def Instr.wellFormed (i : Instr) : Bool := i.operand.fits

end Sys2Proof
end

