-- ==== Sys2Proof/Decode.lean ====
section
/-! DEFINITION. The instruction table (30_encoding R104), the decoder, total on any bytes, and the encoder.
Operand words are little-endian (20_memory R57). -/

namespace Sys2Proof

/-! ## Bytes and words -/

/-- The low byte of a word, `w[7:0]`. -/
def loByte (w : Addr) : Byte := w.setWidth 8

/-- The high byte of a word, `w[15:8]`. -/
def hiByte (w : Addr) : Byte := (w >>> 8).setWidth 8

/-- `hi:lo`, high part first (00_scope R8). -/
def wordOf (hi lo : Byte) : Addr := hi ++ lo

/-! ## The instruction table -/

/-- The byte length of an instruction in a mode (30_encoding R90, R91). -/
def Mode.length : Mode → Nat
  | .imp => 1
  | .acc => 1
  | .imm => 2
  | .zp => 2
  | .zpx => 2
  | .zpy => 2
  | .abs => 3
  | .absx => 3
  | .absy => 3
  | .indx => 2
  | .indy => 2
  | .ind => 3
  | .rel => 2

/-- The mode of an operand (30_encoding R91). -/
def Operand.mode : Operand → Mode
  | .imp => .imp
  | .acc => .acc
  | .imm _ => .imm
  | .zp _ => .zp
  | .zpx _ => .zpx
  | .zpy _ => .zpy
  | .abs _ => .abs
  | .absx _ => .absx
  | .absy _ => .absy
  | .indx _ => .indx
  | .indy _ => .indy
  | .ind _ => .ind
  | .rel _ => .rel

/-- The byte length of an instruction with this operand (30_encoding R90). -/
def Operand.length (o : Operand) : Nat := o.mode.length

/-- A mapped entry of the opcode map, and an unmapped one. -/
def mapped (op : Op) (mode : Mode) (base : Nat) (penalty : Bool) : Option TableRow := some ⟨op, mode, base, penalty⟩

/-! The opcode map of 30_encoding R105, one definition per high nibble, entries in the order of the low nibble, with the
base cycles and the page-cross column of R104. `none` is an unmapped byte (R106). -/

/-- Row 0x of the opcode map. -/
def opcodeRow0 : List (Option TableRow) :=
  [mapped .brk .imp 7 false, mapped .ora .indx 6 false, none, none,
    none, mapped .ora .zp 3 false, mapped .asl .zp 5 false, none,
    mapped .php .imp 3 false, mapped .ora .imm 2 false, mapped .asl .acc 2 false, none,
    none, mapped .ora .abs 4 false, mapped .asl .abs 6 false, none]

/-- Row 1x of the opcode map. -/
def opcodeRow1 : List (Option TableRow) :=
  [mapped .bpl .rel 2 false, mapped .ora .indy 5 true, none, none,
    none, mapped .ora .zpx 4 false, mapped .asl .zpx 6 false, none,
    mapped .clc .imp 2 false, mapped .ora .absy 4 true, none, none,
    none, mapped .ora .absx 4 true, mapped .asl .absx 7 false, none]

/-- Row 2x of the opcode map. -/
def opcodeRow2 : List (Option TableRow) :=
  [mapped .jsr .abs 6 false, mapped .and .indx 6 false, none, none,
    mapped .bit .zp 3 false, mapped .and .zp 3 false, mapped .rol .zp 5 false, none,
    mapped .plp .imp 4 false, mapped .and .imm 2 false, mapped .rol .acc 2 false, none,
    mapped .bit .abs 4 false, mapped .and .abs 4 false, mapped .rol .abs 6 false, none]

/-- Row 3x of the opcode map. -/
def opcodeRow3 : List (Option TableRow) :=
  [mapped .bmi .rel 2 false, mapped .and .indy 5 true, none, none,
    none, mapped .and .zpx 4 false, mapped .rol .zpx 6 false, none,
    mapped .sec .imp 2 false, mapped .and .absy 4 true, none, none,
    none, mapped .and .absx 4 true, mapped .rol .absx 7 false, none]

/-- Row 4x of the opcode map. -/
def opcodeRow4 : List (Option TableRow) :=
  [mapped .rti .imp 6 false, mapped .eor .indx 6 false, none, none,
    none, mapped .eor .zp 3 false, mapped .lsr .zp 5 false, none,
    mapped .pha .imp 3 false, mapped .eor .imm 2 false, mapped .lsr .acc 2 false, none,
    mapped .jmp .abs 3 false, mapped .eor .abs 4 false, mapped .lsr .abs 6 false, none]

/-- Row 5x of the opcode map. -/
def opcodeRow5 : List (Option TableRow) :=
  [mapped .bvc .rel 2 false, mapped .eor .indy 5 true, none, none,
    none, mapped .eor .zpx 4 false, mapped .lsr .zpx 6 false, none,
    mapped .cli .imp 2 false, mapped .eor .absy 4 true, none, none,
    none, mapped .eor .absx 4 true, mapped .lsr .absx 7 false, none]

/-- Row 6x of the opcode map. -/
def opcodeRow6 : List (Option TableRow) :=
  [mapped .rts .imp 6 false, mapped .adc .indx 6 false, none, none,
    none, mapped .adc .zp 3 false, mapped .ror .zp 5 false, none,
    mapped .pla .imp 4 false, mapped .adc .imm 2 false, mapped .ror .acc 2 false, none,
    mapped .jmp .ind 5 false, mapped .adc .abs 4 false, mapped .ror .abs 6 false, none]

/-- Row 7x of the opcode map. -/
def opcodeRow7 : List (Option TableRow) :=
  [mapped .bvs .rel 2 false, mapped .adc .indy 5 true, none, none,
    none, mapped .adc .zpx 4 false, mapped .ror .zpx 6 false, none,
    mapped .sei .imp 2 false, mapped .adc .absy 4 true, none, none,
    none, mapped .adc .absx 4 true, mapped .ror .absx 7 false, none]

/-- Row 8x of the opcode map. -/
def opcodeRow8 : List (Option TableRow) :=
  [none, mapped .sta .indx 6 false, none, none,
    mapped .sty .zp 3 false, mapped .sta .zp 3 false, mapped .stx .zp 3 false, none,
    mapped .dey .imp 2 false, none, mapped .txa .imp 2 false, none,
    mapped .sty .abs 4 false, mapped .sta .abs 4 false, mapped .stx .abs 4 false, none]

/-- Row 9x of the opcode map. -/
def opcodeRow9 : List (Option TableRow) :=
  [mapped .bcc .rel 2 false, mapped .sta .indy 6 false, none, none,
    mapped .sty .zpx 4 false, mapped .sta .zpx 4 false, mapped .stx .zpy 4 false, none,
    mapped .tya .imp 2 false, mapped .sta .absy 5 false, mapped .txs .imp 2 false, none,
    none, mapped .sta .absx 5 false, none, none]

/-- Row Ax of the opcode map. -/
def opcodeRowA : List (Option TableRow) :=
  [mapped .ldy .imm 2 false, mapped .lda .indx 6 false, mapped .ldx .imm 2 false, none,
    mapped .ldy .zp 3 false, mapped .lda .zp 3 false, mapped .ldx .zp 3 false, none,
    mapped .tay .imp 2 false, mapped .lda .imm 2 false, mapped .tax .imp 2 false, none,
    mapped .ldy .abs 4 false, mapped .lda .abs 4 false, mapped .ldx .abs 4 false, none]

/-- Row Bx of the opcode map. -/
def opcodeRowB : List (Option TableRow) :=
  [mapped .bcs .rel 2 false, mapped .lda .indy 5 true, none, none,
    mapped .ldy .zpx 4 false, mapped .lda .zpx 4 false, mapped .ldx .zpy 4 false, none,
    mapped .clv .imp 2 false, mapped .lda .absy 4 true, mapped .tsx .imp 2 false, none,
    mapped .ldy .absx 4 true, mapped .lda .absx 4 true, mapped .ldx .absy 4 true, none]

/-- Row Cx of the opcode map. -/
def opcodeRowC : List (Option TableRow) :=
  [mapped .cpy .imm 2 false, mapped .cmp .indx 6 false, none, none,
    mapped .cpy .zp 3 false, mapped .cmp .zp 3 false, mapped .dec .zp 5 false, none,
    mapped .iny .imp 2 false, mapped .cmp .imm 2 false, mapped .dex .imp 2 false, none,
    mapped .cpy .abs 4 false, mapped .cmp .abs 4 false, mapped .dec .abs 6 false, none]

/-- Row Dx of the opcode map. -/
def opcodeRowD : List (Option TableRow) :=
  [mapped .bne .rel 2 false, mapped .cmp .indy 5 true, none, none,
    none, mapped .cmp .zpx 4 false, mapped .dec .zpx 6 false, none,
    mapped .cld .imp 2 false, mapped .cmp .absy 4 true, none, none,
    none, mapped .cmp .absx 4 true, mapped .dec .absx 7 false, none]

/-- Row Ex of the opcode map. -/
def opcodeRowE : List (Option TableRow) :=
  [mapped .cpx .imm 2 false, mapped .sbc .indx 6 false, none, none,
    mapped .cpx .zp 3 false, mapped .sbc .zp 3 false, mapped .inc .zp 5 false, none,
    mapped .inx .imp 2 false, mapped .sbc .imm 2 false, mapped .nop .imp 2 false, none,
    mapped .cpx .abs 4 false, mapped .sbc .abs 4 false, mapped .inc .abs 6 false, none]

/-- Row Fx of the opcode map. -/
def opcodeRowF : List (Option TableRow) :=
  [mapped .beq .rel 2 false, mapped .sbc .indy 5 true, none, none,
    none, mapped .sbc .zpx 4 false, mapped .inc .zpx 6 false, none,
    mapped .sed .imp 2 false, mapped .sbc .absy 4 true, none, none,
    none, mapped .sbc .absx 4 true, mapped .inc .absx 7 false, none]

/-- The opcode map, row by high nibble, column by low nibble (30_encoding R105). -/
def opcodeMap : List (List (Option TableRow)) :=
  [opcodeRow0, opcodeRow1, opcodeRow2, opcodeRow3, opcodeRow4, opcodeRow5, opcodeRow6, opcodeRow7,
    opcodeRow8, opcodeRow9, opcodeRowA, opcodeRowB, opcodeRowC, opcodeRowD, opcodeRowE, opcodeRowF]

/-- The static instruction table (10_state R29, 30_encoding R104): the entry of an opcode byte, `none` for the 105
unmapped bytes (30_encoding R106). -/
def tableRow (op : Byte) : Option TableRow :=
  (opcodeMap.getD (op.toNat / 16) []).getD (op.toNat % 16) none

/-! ## The decoder -/

/-- Why a byte list is not an instruction: its first byte has no table entry, or operand bytes are missing. -/
inductive DecodeError where
  | empty
  | unmapped (op : Byte)
  | truncated (op : Byte)
  deriving DecidableEq, Repr

/-- What the decoder makes of a byte list: an instruction and the bytes after it, or a rejection by name. -/
inductive Decoded where
  | instr (i : Instr) (rest : List Byte)
  | rejected (e : DecodeError)
  deriving DecidableEq, Repr

/-- The operand a mode reads from the operand bytes; bytes the mode lacks are ignored (30_encoding R91). -/
def operandOf (mode : Mode) (b1 b2 : Byte) : Operand :=
  match mode with
  | .imp => .imp
  | .acc => .acc
  | .imm => .imm b1
  | .zp => .zp b1
  | .zpx => .zpx b1
  | .zpy => .zpy b1
  | .abs => .abs (wordOf b2 b1)
  | .absx => .absx (wordOf b2 b1)
  | .absy => .absy (wordOf b2 b1)
  | .indx => .indx b1
  | .indy => .indy b1
  | .ind => .ind (wordOf b2 b1)
  | .rel => .rel b1.toInt

/-- The instruction with an operation and an operand: `none` where the table has no row of that operation in that mode
(30_encoding R104, R107). -/
def Instr.ofForm (op : Op) (o : Operand) : Option Instr :=
  match op, o with
  | .lda, .imm v => some (.ldaImm v)
  | .lda, .zp b => some (.ldaZp b)
  | .lda, .zpx b => some (.ldaZpx b)
  | .lda, .abs w => some (.ldaAbs w)
  | .lda, .absx w => some (.ldaAbsx w)
  | .lda, .absy w => some (.ldaAbsy w)
  | .lda, .indx b => some (.ldaIndx b)
  | .lda, .indy b => some (.ldaIndy b)
  | .ldx, .imm v => some (.ldxImm v)
  | .ldx, .zp b => some (.ldxZp b)
  | .ldx, .zpy b => some (.ldxZpy b)
  | .ldx, .abs w => some (.ldxAbs w)
  | .ldx, .absy w => some (.ldxAbsy w)
  | .ldy, .imm v => some (.ldyImm v)
  | .ldy, .zp b => some (.ldyZp b)
  | .ldy, .zpx b => some (.ldyZpx b)
  | .ldy, .abs w => some (.ldyAbs w)
  | .ldy, .absx w => some (.ldyAbsx w)
  | .sta, .zp b => some (.staZp b)
  | .sta, .zpx b => some (.staZpx b)
  | .sta, .abs w => some (.staAbs w)
  | .sta, .absx w => some (.staAbsx w)
  | .sta, .absy w => some (.staAbsy w)
  | .sta, .indx b => some (.staIndx b)
  | .sta, .indy b => some (.staIndy b)
  | .stx, .zp b => some (.stxZp b)
  | .stx, .zpy b => some (.stxZpy b)
  | .stx, .abs w => some (.stxAbs w)
  | .sty, .zp b => some (.styZp b)
  | .sty, .zpx b => some (.styZpx b)
  | .sty, .abs w => some (.styAbs w)
  | .tax, .imp => some .tax
  | .tay, .imp => some .tay
  | .tsx, .imp => some .tsx
  | .txa, .imp => some .txa
  | .txs, .imp => some .txs
  | .tya, .imp => some .tya
  | .pha, .imp => some .pha
  | .php, .imp => some .php
  | .pla, .imp => some .pla
  | .plp, .imp => some .plp
  | .and, .imm v => some (.andImm v)
  | .and, .zp b => some (.andZp b)
  | .and, .zpx b => some (.andZpx b)
  | .and, .abs w => some (.andAbs w)
  | .and, .absx w => some (.andAbsx w)
  | .and, .absy w => some (.andAbsy w)
  | .and, .indx b => some (.andIndx b)
  | .and, .indy b => some (.andIndy b)
  | .ora, .imm v => some (.oraImm v)
  | .ora, .zp b => some (.oraZp b)
  | .ora, .zpx b => some (.oraZpx b)
  | .ora, .abs w => some (.oraAbs w)
  | .ora, .absx w => some (.oraAbsx w)
  | .ora, .absy w => some (.oraAbsy w)
  | .ora, .indx b => some (.oraIndx b)
  | .ora, .indy b => some (.oraIndy b)
  | .eor, .imm v => some (.eorImm v)
  | .eor, .zp b => some (.eorZp b)
  | .eor, .zpx b => some (.eorZpx b)
  | .eor, .abs w => some (.eorAbs w)
  | .eor, .absx w => some (.eorAbsx w)
  | .eor, .absy w => some (.eorAbsy w)
  | .eor, .indx b => some (.eorIndx b)
  | .eor, .indy b => some (.eorIndy b)
  | .bit, .zp b => some (.bitZp b)
  | .bit, .abs w => some (.bitAbs w)
  | .adc, .imm v => some (.adcImm v)
  | .adc, .zp b => some (.adcZp b)
  | .adc, .zpx b => some (.adcZpx b)
  | .adc, .abs w => some (.adcAbs w)
  | .adc, .absx w => some (.adcAbsx w)
  | .adc, .absy w => some (.adcAbsy w)
  | .adc, .indx b => some (.adcIndx b)
  | .adc, .indy b => some (.adcIndy b)
  | .sbc, .imm v => some (.sbcImm v)
  | .sbc, .zp b => some (.sbcZp b)
  | .sbc, .zpx b => some (.sbcZpx b)
  | .sbc, .abs w => some (.sbcAbs w)
  | .sbc, .absx w => some (.sbcAbsx w)
  | .sbc, .absy w => some (.sbcAbsy w)
  | .sbc, .indx b => some (.sbcIndx b)
  | .sbc, .indy b => some (.sbcIndy b)
  | .cmp, .imm v => some (.cmpImm v)
  | .cmp, .zp b => some (.cmpZp b)
  | .cmp, .zpx b => some (.cmpZpx b)
  | .cmp, .abs w => some (.cmpAbs w)
  | .cmp, .absx w => some (.cmpAbsx w)
  | .cmp, .absy w => some (.cmpAbsy w)
  | .cmp, .indx b => some (.cmpIndx b)
  | .cmp, .indy b => some (.cmpIndy b)
  | .cpx, .imm v => some (.cpxImm v)
  | .cpx, .zp b => some (.cpxZp b)
  | .cpx, .abs w => some (.cpxAbs w)
  | .cpy, .imm v => some (.cpyImm v)
  | .cpy, .zp b => some (.cpyZp b)
  | .cpy, .abs w => some (.cpyAbs w)
  | .inc, .zp b => some (.incZp b)
  | .inc, .zpx b => some (.incZpx b)
  | .inc, .abs w => some (.incAbs w)
  | .inc, .absx w => some (.incAbsx w)
  | .dec, .zp b => some (.decZp b)
  | .dec, .zpx b => some (.decZpx b)
  | .dec, .abs w => some (.decAbs w)
  | .dec, .absx w => some (.decAbsx w)
  | .inx, .imp => some .inx
  | .iny, .imp => some .iny
  | .dex, .imp => some .dex
  | .dey, .imp => some .dey
  | .asl, .acc => some .aslAcc
  | .asl, .zp b => some (.aslZp b)
  | .asl, .zpx b => some (.aslZpx b)
  | .asl, .abs w => some (.aslAbs w)
  | .asl, .absx w => some (.aslAbsx w)
  | .lsr, .acc => some .lsrAcc
  | .lsr, .zp b => some (.lsrZp b)
  | .lsr, .zpx b => some (.lsrZpx b)
  | .lsr, .abs w => some (.lsrAbs w)
  | .lsr, .absx w => some (.lsrAbsx w)
  | .rol, .acc => some .rolAcc
  | .rol, .zp b => some (.rolZp b)
  | .rol, .zpx b => some (.rolZpx b)
  | .rol, .abs w => some (.rolAbs w)
  | .rol, .absx w => some (.rolAbsx w)
  | .ror, .acc => some .rorAcc
  | .ror, .zp b => some (.rorZp b)
  | .ror, .zpx b => some (.rorZpx b)
  | .ror, .abs w => some (.rorAbs w)
  | .ror, .absx w => some (.rorAbsx w)
  | .bpl, .rel d => some (.bpl d)
  | .bmi, .rel d => some (.bmi d)
  | .bvc, .rel d => some (.bvc d)
  | .bvs, .rel d => some (.bvs d)
  | .bcc, .rel d => some (.bcc d)
  | .bcs, .rel d => some (.bcs d)
  | .bne, .rel d => some (.bne d)
  | .beq, .rel d => some (.beq d)
  | .jmp, .abs w => some (.jmpAbs w)
  | .jmp, .ind w => some (.jmpInd w)
  | .jsr, .abs w => some (.jsr w)
  | .rts, .imp => some .rts
  | .rti, .imp => some .rti
  | .brk, .imp => some .brk
  | .nop, .imp => some .nop
  | .clc, .imp => some .clc
  | .sec, .imp => some .sec
  | .cli, .imp => some .cli
  | .sei, .imp => some .sei
  | .cld, .imp => some .cld
  | .sed, .imp => some .sed
  | .clv, .imp => some .clv
  | _, _ => none

/-- The instruction of an opcode byte and its operand bytes (30_encoding R90, R104). -/
def decodeOp (op b1 b2 : Byte) : Option Instr :=
  match tableRow op with
  | some row => Instr.ofForm row.op (operandOf row.mode b1 b2)
  | none => none

/-- The instruction of one whole encoding: `none` where the opcode byte is unmapped. -/
def decodedAs (op b1 b2 : Byte) (rest : List Byte) : Decoded :=
  match decodeOp op b1 b2 with
  | some i => .instr i rest
  | none => .rejected (.unmapped op)

/-- Decodes the instruction at the head of a byte list; the length is known from byte 0 alone (30_encoding R90, R109). -/
def decode (bytes : List Byte) : Decoded :=
  match bytes with
  | [] => .rejected .empty
  | op :: bs =>
    match tableRow op with
    | none => .rejected (.unmapped op)
    | some row =>
      match row.mode.length, bs with
      | 1, rest => decodedAs op 0 0 rest
      | 2, b1 :: rest => decodedAs op b1 0 rest
      | 3, b1 :: b2 :: rest => decodedAs op b1 b2 rest
      | _, _ => .rejected (.truncated op)

/-! ## The encoder -/

/-- The opcode byte of an instruction (30_encoding R104). -/
def Instr.opcode : Instr → Byte
  | .ldaImm _ => 0xA9#8
  | .ldaZp _ => 0xA5#8
  | .ldaZpx _ => 0xB5#8
  | .ldaAbs _ => 0xAD#8
  | .ldaAbsx _ => 0xBD#8
  | .ldaAbsy _ => 0xB9#8
  | .ldaIndx _ => 0xA1#8
  | .ldaIndy _ => 0xB1#8
  | .ldxImm _ => 0xA2#8
  | .ldxZp _ => 0xA6#8
  | .ldxZpy _ => 0xB6#8
  | .ldxAbs _ => 0xAE#8
  | .ldxAbsy _ => 0xBE#8
  | .ldyImm _ => 0xA0#8
  | .ldyZp _ => 0xA4#8
  | .ldyZpx _ => 0xB4#8
  | .ldyAbs _ => 0xAC#8
  | .ldyAbsx _ => 0xBC#8
  | .staZp _ => 0x85#8
  | .staZpx _ => 0x95#8
  | .staAbs _ => 0x8D#8
  | .staAbsx _ => 0x9D#8
  | .staAbsy _ => 0x99#8
  | .staIndx _ => 0x81#8
  | .staIndy _ => 0x91#8
  | .stxZp _ => 0x86#8
  | .stxZpy _ => 0x96#8
  | .stxAbs _ => 0x8E#8
  | .styZp _ => 0x84#8
  | .styZpx _ => 0x94#8
  | .styAbs _ => 0x8C#8
  | .tax => 0xAA#8
  | .tay => 0xA8#8
  | .tsx => 0xBA#8
  | .txa => 0x8A#8
  | .txs => 0x9A#8
  | .tya => 0x98#8
  | .pha => 0x48#8
  | .php => 0x08#8
  | .pla => 0x68#8
  | .plp => 0x28#8
  | .andImm _ => 0x29#8
  | .andZp _ => 0x25#8
  | .andZpx _ => 0x35#8
  | .andAbs _ => 0x2D#8
  | .andAbsx _ => 0x3D#8
  | .andAbsy _ => 0x39#8
  | .andIndx _ => 0x21#8
  | .andIndy _ => 0x31#8
  | .oraImm _ => 0x09#8
  | .oraZp _ => 0x05#8
  | .oraZpx _ => 0x15#8
  | .oraAbs _ => 0x0D#8
  | .oraAbsx _ => 0x1D#8
  | .oraAbsy _ => 0x19#8
  | .oraIndx _ => 0x01#8
  | .oraIndy _ => 0x11#8
  | .eorImm _ => 0x49#8
  | .eorZp _ => 0x45#8
  | .eorZpx _ => 0x55#8
  | .eorAbs _ => 0x4D#8
  | .eorAbsx _ => 0x5D#8
  | .eorAbsy _ => 0x59#8
  | .eorIndx _ => 0x41#8
  | .eorIndy _ => 0x51#8
  | .bitZp _ => 0x24#8
  | .bitAbs _ => 0x2C#8
  | .adcImm _ => 0x69#8
  | .adcZp _ => 0x65#8
  | .adcZpx _ => 0x75#8
  | .adcAbs _ => 0x6D#8
  | .adcAbsx _ => 0x7D#8
  | .adcAbsy _ => 0x79#8
  | .adcIndx _ => 0x61#8
  | .adcIndy _ => 0x71#8
  | .sbcImm _ => 0xE9#8
  | .sbcZp _ => 0xE5#8
  | .sbcZpx _ => 0xF5#8
  | .sbcAbs _ => 0xED#8
  | .sbcAbsx _ => 0xFD#8
  | .sbcAbsy _ => 0xF9#8
  | .sbcIndx _ => 0xE1#8
  | .sbcIndy _ => 0xF1#8
  | .cmpImm _ => 0xC9#8
  | .cmpZp _ => 0xC5#8
  | .cmpZpx _ => 0xD5#8
  | .cmpAbs _ => 0xCD#8
  | .cmpAbsx _ => 0xDD#8
  | .cmpAbsy _ => 0xD9#8
  | .cmpIndx _ => 0xC1#8
  | .cmpIndy _ => 0xD1#8
  | .cpxImm _ => 0xE0#8
  | .cpxZp _ => 0xE4#8
  | .cpxAbs _ => 0xEC#8
  | .cpyImm _ => 0xC0#8
  | .cpyZp _ => 0xC4#8
  | .cpyAbs _ => 0xCC#8
  | .incZp _ => 0xE6#8
  | .incZpx _ => 0xF6#8
  | .incAbs _ => 0xEE#8
  | .incAbsx _ => 0xFE#8
  | .decZp _ => 0xC6#8
  | .decZpx _ => 0xD6#8
  | .decAbs _ => 0xCE#8
  | .decAbsx _ => 0xDE#8
  | .inx => 0xE8#8
  | .iny => 0xC8#8
  | .dex => 0xCA#8
  | .dey => 0x88#8
  | .aslAcc => 0x0A#8
  | .aslZp _ => 0x06#8
  | .aslZpx _ => 0x16#8
  | .aslAbs _ => 0x0E#8
  | .aslAbsx _ => 0x1E#8
  | .lsrAcc => 0x4A#8
  | .lsrZp _ => 0x46#8
  | .lsrZpx _ => 0x56#8
  | .lsrAbs _ => 0x4E#8
  | .lsrAbsx _ => 0x5E#8
  | .rolAcc => 0x2A#8
  | .rolZp _ => 0x26#8
  | .rolZpx _ => 0x36#8
  | .rolAbs _ => 0x2E#8
  | .rolAbsx _ => 0x3E#8
  | .rorAcc => 0x6A#8
  | .rorZp _ => 0x66#8
  | .rorZpx _ => 0x76#8
  | .rorAbs _ => 0x6E#8
  | .rorAbsx _ => 0x7E#8
  | .bpl _ => 0x10#8
  | .bmi _ => 0x30#8
  | .bvc _ => 0x50#8
  | .bvs _ => 0x70#8
  | .bcc _ => 0x90#8
  | .bcs _ => 0xB0#8
  | .bne _ => 0xD0#8
  | .beq _ => 0xF0#8
  | .jmpAbs _ => 0x4C#8
  | .jmpInd _ => 0x6C#8
  | .jsr _ => 0x20#8
  | .rts => 0x60#8
  | .rti => 0x40#8
  | .brk => 0x00#8
  | .nop => 0xEA#8
  | .clc => 0x18#8
  | .sec => 0x38#8
  | .cli => 0x58#8
  | .sei => 0x78#8
  | .cld => 0xD8#8
  | .sed => 0xF8#8
  | .clv => 0xB8#8

/-- The operand bytes of an operand, low byte first (30_encoding R90, R91). -/
def Operand.bytes : Operand → List Byte
  | .imp => []
  | .acc => []
  | .imm v => [v]
  | .zp b => [b]
  | .zpx b => [b]
  | .zpy b => [b]
  | .abs w => [loByte w, hiByte w]
  | .absx w => [loByte w, hiByte w]
  | .absy w => [loByte w, hiByte w]
  | .indx b => [b]
  | .indy b => [b]
  | .ind w => [loByte w, hiByte w]
  | .rel d => [BitVec.ofInt 8 d]

/-- The bytes of an instruction: its opcode byte, then its operand bytes at increasing addresses (30_encoding R90). -/
def encode (i : Instr) : List Byte := i.opcode :: i.operand.bytes

/-! ## The host's reading of the opcode table -/

/-- Byte `k` of an instruction whose first `nbits` bits are `w` and whose further bits are 0. -/
def tableByte (nbits w k : Nat) : Byte := BitVec.ofNat 8 ((w % 2 ^ nbits) >>> (8 * k))

/-- The instruction the decoder reads from the bits `w`, bit 0 the least significant bit of the first byte; operand
bytes the table gives no bits are 0. -/
def decodeTableWord (nbits w : Nat) : Option Instr :=
  match decode [tableByte nbits w 0, tableByte nbits w 1, tableByte nbits w 2] with
  | .instr i _ => some i
  | .rejected _ => none

end Sys2Proof
end

