-- ==== Sys2Proof/Config.lean ====
section
/-! DEFINITION. What one machine fixes and what the spec leaves free: the OPEN parameters of 00_scope R7, the cartridge
board (MAPPER, 20_memory R62), and the free values, which are opaque: nothing in Lean can evaluate them. -/

namespace Sys2Proof

/-! ## The cartridge board -/

/-- The PRG ROM sizes the NROM reference board comes in (20_memory R65). -/
inductive PrgSize where
  | k16
  | k32
  deriving DecidableEq, Repr, Inhabited

/-- Which instance of MAPPER is plugged in (20_memory R62): the NROM reference of R65, or any other board, known by a
number only; what board `id` does is free (the `Config.board…` constants). DESIGN CHOICE, log entry 5, safe. -/
inductive Board where
  | nrom (size : PrgSize)
  | custom (id : Nat)
  deriving DecidableEq, Repr, Inhabited

/-- `mapper_state` (10_state R36): the selected bank indices, and whatever else a board keeps. NROM's state is the
unit state, both lists empty (20_memory R65). -/
structure MapperState where
  banks : List Nat
  other : List Nat
  deriving DecidableEq, Repr, Inhabited

/-- The `location` a mapper resolves a bus address to (20_memory R62). -/
inductive Location where
  | prg (off : Nat)
  | cartRam (off : Nat)
  | unbacked
  deriving DecidableEq, Repr, Inhabited

/-- The initial state of board `id` (`init`, 20_memory R62). Free. -/
opaque Config.boardInit (id : Nat) : MapperState

/-- What a system reset does to the state of board `id` (`on_reset`, 20_memory R62). Free. -/
opaque Config.boardOnReset (id : Nat) (m : MapperState) : MapperState

/-- Which addresses board `id` claims for writes (`claims`, 20_memory R62). Free. -/
opaque Config.boardClaims (id : Nat) (a : Addr) : Bool

/-- The new state board `id` computes from a write, before its bank indices are masked (`on_write`, 20_memory R62). Free. -/
opaque Config.boardOnWrite (id : Nat) (a : Addr) (v : Byte) (m : MapperState) : MapperState

/-- One less than the number of banks that index number `slot` of board `id` chooses among (`bank_count`, 20_memory
R62). Free. -/
opaque Config.boardLastBank (id slot : Nat) : Nat

/-- What a read in the cartridge range does to the state of board `id` (20_memory R60, 90_conflicts C6). Free.
DEDUCED, log entry 17, safe. -/
opaque Config.boardOnRead (id : Nat) (a : Addr) (m : MapperState) : MapperState

/-- Where board `id` finds the byte of address `a` (`resolve`, 20_memory R62). Free. -/
opaque Config.boardResolve (id : Nat) (a : Addr) (m : MapperState) : Location

/-- The interrupt line of board `id` (`irq`, 20_memory R64). Free. -/
opaque Config.boardIrq (id : Nat) (m : MapperState) : Bool

/-! ## Free values -/

/-- The `n`-th draw: any byte (20_memory R56, 70_reset_and_hazards R339). Free. DESIGN CHOICE, log entry 6, safe. -/
opaque Config.draw (n : Nat) : Byte

/-- The byte the PPU answers when its register `reg` is read as draw number `n` (20_memory R54). Free.
DESIGN CHOICE, log entry 7, safe. -/
opaque Config.ppuRead (n : Nat) (reg : Nat) : Byte

/-- `FREQ_DIVISOR_NOISE`, OPEN without a reference value (00_scope R7). Free. DESIGN CHOICE, log entry 20, safe. -/
opaque Config.freqDivisorNoise : Nat

/-- `DMC_FREQUENCY(rate)`, OPEN without a reference value (00_scope R7). Free. DESIGN CHOICE, log entry 20, safe. -/
opaque Config.dmcFrequency (rate : Nat) : Rat

/-! ## The three vectors (00_scope R7) -/

/-- `VEC_NMI`. -/
def Config.vecNmi : Addr := 0xFFFA#16

/-- `VEC_RESET`. -/
def Config.vecReset : Addr := 0xFFFC#16

/-- `VEC_IRQ`, shared by IRQ and BRK. -/
def Config.vecIrq : Addr := 0xFFFE#16

/-! ## Launch parameters -/

/-- `IRQ_DELIVERY` (60_exceptions R306): the two reference policies, and any other policy, whose calls of
`requestIrq()` stand one by one in the host's script. -/
inductive IrqDelivery where
  | level
  | edgeOnce
  | scripted
  deriving DecidableEq, Repr, Inhabited

/-- A ratio of two numbers, as plain data. -/
structure Ratio where
  num : Nat
  den : Nat
  deriving DecidableEq, Repr, Inhabited

/-- The OPEN parameters of 00_scope R7 that have a value a run can use. They are launch data held in State, so every
statement about every state holds for every value of them. DESIGN CHOICE, log entry 4, safe. -/
structure Params where
  /-- `VBLANK_SCANLINE`: the scanline at which the frame sequencer ticks. -/
  vblankScanline : Nat
  /-- `LENGTH_TABLE`; entry 0 is fixed to 0x0A by the source and read through `lengthEntry`. -/
  lengthTable : Vector Byte 32
  /-- `NOISE_PERIOD_TABLE`. -/
  noisePeriodTable : Vector Nat 16
  /-- `DUTY_TABLE`. -/
  dutyTable : Vector Ratio 4
  /-- `CPU_CLOCK_HZ`. -/
  cpuClockHz : Nat
  /-- `FREQ_DIVISOR_PULSE`. -/
  freqDivisorPulse : Nat
  /-- `FREQ_DIVISOR_TRIANGLE`. -/
  freqDivisorTriangle : Nat
  /-- `STEP_LOG_CAPACITY`. -/
  stepLogCapacity : Nat
  /-- `INTERRUPT_CYCLES`: what the ghost counter adds for an accepted interrupt entry. -/
  interruptCycles : Nat
  /-- `DEBUG_ENABLED`: controls diagnostics output only; no rule reads it (60_exceptions R313). -/
  debugEnabled : Bool
  /-- `IRQ_DELIVERY`. -/
  irqDelivery : IrqDelivery
  deriving DecidableEq, Repr, Inhabited

/-- The reference values of 00_scope R7 and 50_apu R287. The spec gives none for `STEP_LOG_CAPACITY` and
`IRQ_DELIVERY`: 64 and `level` are the model's. DESIGN CHOICE, log entry 4, safe. -/
def Params.reference : Params where
  vblankScanline := 241
  lengthTable := #v[10, 254, 20, 2, 40, 4, 80, 6, 160, 8, 60, 10, 14, 12, 26, 14,
    12, 16, 24, 18, 48, 20, 96, 22, 192, 24, 72, 26, 16, 28, 32, 30]
  noisePeriodTable := #v[4, 8, 16, 32, 64, 96, 128, 160, 202, 254, 380, 508, 762, 1016, 2034, 4068]
  dutyTable := #v[⟨1, 8⟩, ⟨1, 4⟩, ⟨1, 2⟩, ⟨3, 4⟩]
  cpuClockHz := 1789773
  freqDivisorPulse := 16
  freqDivisorTriangle := 32
  stepLogCapacity := 64
  interruptCycles := 7
  debugEnabled := false
  irqDelivery := .level

end Sys2Proof
end

