-- ==== Sys2Proof/Machine/State.lean ====
section
/-! DEFINITION. The state of the CORE as plain data (10_state), what a host can ask of it (00_scope R12), the reasons a
step can stop, and the state after reset (10_state R45, 70_reset_and_hazards R330 to R333). -/

namespace Sys2Proof.Machine

/-! ## CPU data -/

/-- The bits of the status register P (10_state R22). -/
inductive Flag where
  | n | v | r | b | d | i | z | c
  deriving DecidableEq, Repr, Inhabited

/-- The direction of a data access, and the kind of a watchpoint (10_state R28, 60_exceptions R315). -/
inductive Access where
  | read
  | write
  deriving DecidableEq, Repr, Inhabited

/-- Why the CPU is paused (10_state R27, 60_exceptions R300). No step raises `illegalMode` (60_exceptions R302). -/
inductive PauseReason where
  | unmappedOpcode (op : Byte) (pc : Addr)
  | illegalMode
  | breakpoint (pc : Addr)
  | nmiBreakpoint
  | watchpoint (addr : Addr) (kind : Access)
  deriving DecidableEq, Repr, Inhabited

/-- One entry of the step log: the address, opcode byte and operand bytes of an executed instruction, `none` for an
operand byte its length lacks (60_exceptions R316). -/
structure LogEntry where
  pc0 : Addr
  op : Byte
  b1 : Option Byte
  b2 : Option Byte
  deriving DecidableEq, Repr, Inhabited

/-- An effective address: `none` is the sentinel `NO_ADDRESS`; `crossed` is the page test (30_encoding R92 to R100). -/
structure EffAddr where
  addr : Option Addr
  crossed : Bool
  deriving DecidableEq, Repr, Inhabited

/-! ## Memory -/

/-- A memory: the bytes that differ from what an unlisted address reads as, addresses strictly rising. -/
abbrev Memory := List Host.Cell

/-- The default region of a bus address (20_memory R53). RAM carries the offset its mirrors share, the PPU range the
register address, the APU window the register index. -/
inductive Region where
  | ram (off : Nat)
  | ppu (reg : Nat)
  | apu (idx : BitVec 5)
  | cart
  deriving DecidableEq, Repr, Inhabited

/-- A byte of the machine's memory: internal RAM, cartridge RAM or PRG ROM, by offset (10_state R36). -/
inductive Cell where
  | ram (off : Nat)
  | cartRam (off : Nat)
  | prg (off : Nat)
  deriving DecidableEq, Repr, Inhabited

/-! ## The APU (10_state R32 to R35) -/

/-- The four raw register bytes of a channel (10_state R34). -/
structure ChanRegs where
  r0 : Byte
  r1 : Byte
  r2 : Byte
  r3 : Byte
  deriving DecidableEq, Repr, Inhabited

/-- The envelope of a pulse or noise channel: divider and counter, 0..15 between ticks, and the scheduled reset
(10_state R34). -/
structure Envelope where
  divider : Nat
  counter : Nat
  reset : Bool
  deriving DecidableEq, Repr, Inhabited

/-- A pulse channel (10_state R34). -/
structure Pulse where
  regs : ChanRegs
  stopped : Bool
  enabled : Bool
  length : Nat
  env : Envelope
  sweepCounter : Nat
  deriving DecidableEq, Repr, Inhabited

/-- The triangle channel (10_state R34). -/
structure Triangle where
  regs : ChanRegs
  stopped : Bool
  enabled : Bool
  length : Nat
  deriving DecidableEq, Repr, Inhabited

/-- The noise channel (10_state R34). -/
structure Noise where
  regs : ChanRegs
  stopped : Bool
  enabled : Bool
  length : Nat
  env : Envelope
  deriving DecidableEq, Repr, Inhabited

/-- The delta-modulation channel (10_state R34). -/
structure Dmc where
  regs : ChanRegs
  stopped : Bool
  enabled : Bool
  dmaLength : Nat
  deriving DecidableEq, Repr, Inhabited

/-- The APU: register mirror, interrupt flags, five channels, game-pad latch (10_state R32 to R35). The strobe is bit 0
of `regs[0x16]`. -/
structure Apu where
  regs : Vector Byte 32
  frameIrq : Bool
  dmcIrq : Bool
  p1 : Pulse
  p2 : Pulse
  tri : Triangle
  noi : Noise
  dmc : Dmc
  padStatus0 : Byte
  padStatus1 : Byte
  padShift0 : Byte
  padShift1 : Byte
  deriving DecidableEq, Repr, Inhabited

/-! ## The host -/

/-- The two game pads (50_apu R283). -/
inductive Pad where
  | pad0
  | pad1
  deriving DecidableEq, Repr, Inhabited

/-- What the CORE hands outside: a PPU register write (20_memory R54), a sprite DMA request (20_memory R55), an
invocation of the shared interrupt trigger (50_apu R255). -/
inductive Event where
  | ppuWrite (reg : Nat) (v : Byte)
  | spriteDma (v : Byte)
  | irqTrigger
  deriving DecidableEq, Repr, Inhabited

/-- A field name of a CPU snapshot as a host presents it; `other` is any name that is no register's
(70_reset_and_hazards R336, R337). -/
inductive SnapField where
  | a | x | y | s | p | pc
  | other (n : Nat)
  deriving DecidableEq, Repr, Inhabited

/-- A CPU snapshot as a host presents it: named integers, well formed or not (70_reset_and_hazards R337). -/
abbrev CpuSnapshot := List (SnapField × Int)

/-- What a host move returns (00_scope R12): nothing, the cycles of a step, whether an interrupt request was accepted,
a snapshot, log entries, or the refusal of a malformed snapshot (70_reset_and_hazards R337, R339). -/
inductive HostResult where
  | nothing
  | cycles (n : Nat)
  | accepted (b : Bool)
  | cpuSnapshot (s : CpuSnapshot)
  | apuSnapshot (m : List Byte)
  | log (l : List LogEntry)
  | corruptState
  deriving DecidableEq, Repr, Inhabited

/-- A move of the host (00_scope R12). The last three are the reference driver's: deliver an interrupt by the policy of
60_exceptions R306, step unless paused, and one whole boundary in the order of 60_exceptions R308. -/
inductive HostMove where
  | step
  | nmi
  | requestIrq
  | onHblank (n : Nat)
  | cpuReset
  | apuReset
  | systemReset
  | setStatus (i : Pad) (mask : Byte)
  | bpEnable (a : Addr)
  | bpDisable (a : Addr)
  | bpEnableNmi
  | bpDisableNmi
  | bpClearAll
  | wpEnable (a : Addr) (kind : Access)
  | wpDisable (a : Addr) (kind : Access)
  | stepLog (n : Nat)
  | resume
  | cpuSave
  | cpuLoad (s : CpuSnapshot)
  | apuSave
  | apuLoad (m : List Byte)
  | deliverIrq
  | stepUnlessPaused
  | boundary (hblank : Option Nat) (nmi : Bool)
  deriving DecidableEq, Repr, Inhabited

/-! ## The state -/

/-- The state of the CORE. The last eight fields are the model's own (log entries 4, 6, 8, 11, 12, 13). -/
structure State where
  /-- A, the accumulator (10_state R20). -/
  a : Byte
  /-- X, an index register (10_state R20). -/
  x : Byte
  /-- Y, an index register (10_state R20). -/
  y : Byte
  /-- S, the stack pointer: the next free byte is at 0x0100 + S (10_state R21). -/
  sp : Byte
  /-- P, the status register (10_state R22). -/
  p : Byte
  /-- PC, the address of the next opcode byte between steps (10_state R25). -/
  pc : Addr
  /-- `paused` (10_state R27). -/
  paused : Bool
  /-- `pause_reason` (10_state R27); `none` at construction. DESIGN CHOICE, log entry 13, unsafe. -/
  pauseReason : Option PauseReason
  /-- The addresses whose breakpoint is enabled, strictly rising (10_state R28). DEDUCED, log entry 15, safe. -/
  breakpoints : List Nat
  /-- The breakpoint on the event "nmi" (10_state R28). -/
  bpNmi : Bool
  /-- The read watchpoints, strictly rising (10_state R28). -/
  readWatch : List Nat
  /-- The write watchpoints, strictly rising (10_state R28). -/
  writeWatch : List Nat
  /-- The step log, oldest entry first (10_state R28, 60_exceptions R316). -/
  stepLog : List LogEntry
  /-- Internal RAM by offset, 2048 bytes (20_memory R53). -/
  ram : Memory
  /-- Cartridge RAM by offset (20_memory R62, R65). -/
  cartRam : Memory
  /-- PRG ROM by offset, launch data no instruction writes (10_state R36). -/
  prgRom : Memory
  /-- CHR by offset, launch data in the PPU's address space: the CORE holds it and no access reaches it (00_scope R7,
  20_memory R51). DESIGN CHOICE, log entry 21, safe. -/
  chr : Memory
  /-- The board, launch data (20_memory R62). -/
  board : Board
  /-- `mapper_state` (10_state R36). -/
  mapper : MapperState
  /-- The APU (10_state R32 to R35). -/
  apu : Apu
  /-- The ghost cycle counter no rule reads (10_state R30). -/
  cycles : Nat
  /-- What the last host move returned (00_scope R12). -/
  result : HostResult
  /-- The first watchpoint hit of the instruction in progress (60_exceptions R315). DESIGN CHOICE, log entry 13, safe. -/
  watchHit : Option (Addr × Access)
  /-- What the CORE handed outside, newest first (20_memory R54, R55, 50_apu R255). -/
  events : List Event
  /-- A trigger the EDGE_ONCE policy has not looked at yet (60_exceptions R306). -/
  irqTrigger : Bool
  /-- How many free values have been drawn. -/
  draws : Nat
  /-- The host's next moves, oldest first; when it is empty the host calls `step()` (00_scope R12). -/
  script : List HostMove
  /-- The OPEN parameters (00_scope R7). -/
  params : Params
  deriving DecidableEq, Repr, Inhabited

/-- Why the machine stops. -/
inductive Fault where
  /-- Raised by `hostMove` when the host's next move is `step()` and `paused` is true: the driver checks `paused` before
  each step and does not make this call (60_exceptions R300). Safe: the machine stops where the spec has no step. -/
  | stepWhilePaused
  deriving DecidableEq, Repr, Inhabited

/-- Why an instruction has no meaning. -/
inductive Refusal where
  /-- Raised by `exec` for an instruction that has no meaning yet, by name. Safe. No arm of `exec` raises it now. -/
  | notModelled (mnemonic : String)
  deriving DecidableEq, Repr, Inhabited

/-- What a meaning and a step answer. -/
abbrev Answer := Host.Outcome State Fault Refusal

/-! ## Reset -/

/-- A channel's registers after reset (50_apu R288). -/
def ChanRegs.zero : ChanRegs := { r0 := 0, r1 := 0, r2 := 0, r3 := 0 }

/-- An envelope after reset (50_apu R288). -/
def Envelope.zero : Envelope := { divider := 0, counter := 0, reset := false }

/-- A pulse channel after reset (50_apu R288). -/
def Pulse.zero : Pulse :=
  { regs := .zero, stopped := true, enabled := false, length := 0, env := .zero, sweepCounter := 0 }

/-- The triangle channel after reset (50_apu R288). -/
def Triangle.zero : Triangle := { regs := .zero, stopped := true, enabled := false, length := 0 }

/-- The noise channel after reset (50_apu R288). -/
def Noise.zero : Noise := { regs := .zero, stopped := true, enabled := false, length := 0, env := .zero }

/-- The DMC after reset (50_apu R288). -/
def Dmc.zero : Dmc := { regs := .zero, stopped := true, enabled := false, dmaLength := 0 }

/-- The APU after `apu.reset()` from construction: mirror 0 but for 0x40 at 0x17, flags clear, channels reset, pads 0
(10_state R45, 70_reset_and_hazards R332). -/
def Apu.zero : Apu where
  regs := (Vector.replicate 32 0#8).set 0x17 0x40#8
  frameIrq := false
  dmcIrq := false
  p1 := .zero
  p2 := .zero
  tri := .zero
  noi := .zero
  dmc := .zero
  padStatus0 := 0
  padStatus1 := 0
  padShift0 := 0
  padShift1 := 0

/-- The machine right after power-on and `system_reset()` (10_state R45, 70_reset_and_hazards R333). The power-on draws
A, X, Y, S are 0x00 here, so S is 0xFD; PC is the reset vector of a PRG ROM nothing has been loaded into.
DESIGN CHOICE, log entries 1 to 5, unsafe. -/
def State.reset : State where
  a := 0x00#8
  x := 0x00#8
  y := 0x00#8
  sp := 0xFD#8
  p := 0x34#8
  pc := 0x0000#16
  paused := false
  pauseReason := none
  breakpoints := []
  bpNmi := false
  readWatch := []
  writeWatch := []
  stepLog := []
  ram := []
  cartRam := []
  prgRom := []
  chr := []
  board := .nrom .k32
  mapper := { banks := [], other := [] }
  apu := .zero
  cycles := 0
  result := .nothing
  watchHit := none
  events := []
  irqTrigger := false
  draws := 0
  script := []
  params := .reference

end Sys2Proof.Machine
end

