-- ==== Sys2Proof/Machine/Apu.lean ====
section
/-! DEFINITION. The APU (50_apu): register writes and reads, the frame sequencer, the five channels' steps, the DMC
counter, the game-pad latch, reset and the state after `apu.load`. Every operation is a function of the APU alone; what
it hands to the rest of the machine (an interrupt trigger) it returns. -/

namespace Sys2Proof.Machine

/-! ## Registers -/

/-- The register mirror's byte `i` (10_state R32). -/
def Apu.reg (u : Apu) (i : BitVec 5) : Byte := u.regs[i.toNat]'i.isLt

/-- The register mirror with `v` in byte `i` (10_state R32). -/
def Apu.setReg (u : Apu) (i : BitVec 5) (v : Byte) : Apu := { u with regs := u.regs.set i.toNat v i.isLt }

/-- The controller strobe: bit 0 last written to 0x4016 (10_state R35). -/
def Apu.strobe (u : Apu) : Bool := (u.reg 0x16).getLsbD 0

/-- Channel register `r` set to `v` (50_apu R256). -/
def ChanRegs.set (g : ChanRegs) (r : BitVec 2) (v : Byte) : ChanRegs :=
  match r.toNat with
  | 0 => { g with r0 := v }
  | 1 => { g with r1 := v }
  | 2 => { g with r2 := v }
  | _ => { g with r3 := v }

/-- The 11-bit period `T = regs[3][2:0] : regs[2]` (50_apu R265, R274). -/
def ChanRegs.period (g : ChanRegs) : Nat := (g.r3.toNat % 8) * 256 + g.r2.toNat

/-- The registers with the 11-bit period `t` (50_apu R272). -/
def ChanRegs.setPeriod (g : ChanRegs) (t : Nat) : ChanRegs :=
  { g with r2 := BitVec.ofNat 8 t, r3 := (g.r3 &&& 0xF8#8) ||| (BitVec.ofNat 8 (t / 256) &&& 0x07#8) }

/-- The volume nibble, bits 3:0 of the first register (50_apu R265, R277). -/
def ChanRegs.nibble (g : ChanRegs) : Nat := g.r0.toNat % 16

/-- Bit 5 of the first register: length-counter halt and envelope loop of pulse and noise (50_apu R265, R277). -/
def ChanRegs.halt (g : ChanRegs) : Bool := g.r0.getLsbD 5

/-- `LENGTH_TABLE[i]`; entry 0 is 0x0A in every machine (50_apu R287). -/
def lengthEntry (t : Vector Byte 32) (i : BitVec 5) : Nat :=
  if i = 0 then 0x0A else (t[i.toNat]'i.isLt).toNat

/-- The length-table index, bits 7:3 of a byte (50_apu R266). -/
def lengthIndex (v : Byte) : BitVec 5 := (v >>> 3).setWidth 5

/-! ## Channel writes (50_apu R256, R266, R274, R277, R280) -/

/-- The envelope after a write of `v` to the first register: reloaded from the nibble unless constant volume is
selected (50_apu R266). -/
def Envelope.arm (e : Envelope) (v : Byte) : Envelope :=
  if v.getLsbD 4 then e else { e with divider := v.toNat % 16, counter := v.toNat % 16 }

/-- A write to a pulse register (50_apu R266). -/
def Pulse.write (t : Vector Byte 32) (c : Pulse) (r : BitVec 2) (v : Byte) : Pulse :=
  let c := { c with regs := c.regs.set r v }
  match r.toNat with
  | 0 => { c with stopped := false, env := c.env.arm v }
  | 3 => { c with length := lengthEntry t (lengthIndex v), env := { c.env with reset := true } }
  | _ => c

/-- A write to a triangle register (50_apu R274). -/
def Triangle.write (c : Triangle) (r : BitVec 2) (v : Byte) : Triangle :=
  let c := { c with regs := c.regs.set r v }
  match r.toNat with
  | 3 => { c with length := c.regs.r0.toNat % 128, stopped := false }
  | _ => c

/-- A write to a noise register (50_apu R277). -/
def Noise.write (t : Vector Byte 32) (c : Noise) (r : BitVec 2) (v : Byte) : Noise :=
  let c := { c with regs := c.regs.set r v }
  match r.toNat with
  | 0 => { c with stopped := false, env := c.env.arm v }
  | 3 => { c with length := lengthEntry t (lengthIndex v), env := { c.env with reset := true } }
  | _ => c

/-- A write to a DMC register: the store only (50_apu R280). -/
def Dmc.write (c : Dmc) (r : BitVec 2) (v : Byte) : Dmc := { c with regs := c.regs.set r v }

/-- A write to register `i` of the channel window, `i` at most 0x13: channel `i >> 2`, register `i & 3`
(50_apu R250, R256). -/
def Apu.channelWrite (t : Vector Byte 32) (u : Apu) (i : BitVec 5) (v : Byte) : Apu :=
  let r : BitVec 2 := i.setWidth 2
  match i.toNat / 4 with
  | 0 => { u with p1 := u.p1.write t r v }
  | 1 => { u with p2 := u.p2.write t r v }
  | 2 => { u with tri := u.tri.write r v }
  | 3 => { u with noi := u.noi.write t r v }
  | _ => { u with dmc := u.dmc.write r v }

/-! ## The status register 0x4015 -/

/-- The DMA length a DMC is primed with, `((regs[3] >> 4) + 1) * 8` (50_apu R281). -/
def Dmc.primeLength (c : Dmc) : Nat := (c.regs.r3.toNat / 16 + 1) * 8

/-- DMC enable and disable (50_apu R281). -/
def Dmc.enable (c : Dmc) (e : Bool) : Dmc :=
  if e then
    if c.dmaLength = 0 then { c with dmaLength := c.primeLength, stopped := false } else c
  else { c with dmaLength := 0, stopped := true }

/-- A write of the status register (50_apu R260). -/
def Apu.statusWrite (u : Apu) (v : Byte) : Apu :=
  { u with
    dmcIrq := false
    p1 := { u.p1 with enabled := v.getLsbD 0 }
    p2 := { u.p2 with enabled := v.getLsbD 1 }
    tri := { u.tri with enabled := v.getLsbD 2 }
    noi := { u.noi with enabled := v.getLsbD 3 }
    dmc := Dmc.enable { u.dmc with enabled := v.getLsbD 4 } (v.getLsbD 4) }

/-- `IsPlaying` of a pulse channel (50_apu R263). -/
def Pulse.isPlaying (c : Pulse) : Bool := !c.stopped

/-- `IsPlaying` of the triangle channel (50_apu R263). -/
def Triangle.isPlaying (c : Triangle) : Bool := !c.stopped

/-- `IsPlaying` of the noise channel (50_apu R263). -/
def Noise.isPlaying (c : Noise) : Bool := !c.stopped

/-- `IsPlaying` of the DMC (50_apu R263). -/
def Dmc.isPlaying (c : Dmc) : Bool := !c.stopped && decide (0 < c.dmaLength)

/-- Bit `i` of a byte, set when `b` holds. -/
def bitIf (i : Nat) (b : Bool) : Byte := if b then 1#8 <<< i else 0#8

/-- The byte a read of the status register composes (50_apu R262). -/
def Apu.statusByte (u : Apu) : Byte :=
  bitIf 0 (u.p1.isPlaying && u.p1.enabled) ||| bitIf 1 (u.p2.isPlaying && u.p2.enabled) |||
  bitIf 2 (u.tri.isPlaying && u.tri.enabled) ||| bitIf 3 (u.noi.isPlaying && u.noi.enabled) |||
  bitIf 4 (u.dmc.isPlaying && u.dmc.enabled) ||| bitIf 6 u.frameIrq ||| bitIf 7 u.dmcIrq

/-- A read of the status register: the byte, then `frame_irq` is cleared (50_apu R262). -/
def Apu.statusRead (u : Apu) : Byte × Apu := (u.statusByte, { u with frameIrq := false })

/-! ## The game-pad latch -/

/-- A button mask without opposing directions (50_apu R283). -/
def maskOpposing (mask : Byte) : Byte :=
  let mask := if mask.getLsbD 6 && mask.getLsbD 7 then mask &&& ~~~0xC0#8 else mask
  if mask.getLsbD 4 && mask.getLsbD 5 then mask &&& ~~~0x30#8 else mask

/-- The new button mask of a pad (50_apu R283). -/
def Apu.setStatus (u : Apu) (i : Pad) (mask : Byte) : Apu :=
  match i with
  | .pad0 => { u with padStatus0 := maskOpposing mask }
  | .pad1 => { u with padStatus1 := maskOpposing mask }

/-- The strobe write: both pads are latched on the falling edge (50_apu R284). -/
def Apu.strobeWrite (u : Apu) (oldStrobe : Bool) (v : Byte) : Apu :=
  if oldStrobe && !v.getLsbD 0 then { u with padShift0 := u.padStatus0, padShift1 := u.padStatus1 } else u

/-- A pad read: the next latched bit, and the register shifted (50_apu R285). -/
def Apu.padRead (u : Apu) (i : Pad) : Byte × Apu :=
  match i with
  | .pad0 => (u.padShift0 &&& 1#8, { u with padShift0 := u.padShift0 >>> 1 })
  | .pad1 => (u.padShift1 &&& 1#8, { u with padShift1 := u.padShift1 >>> 1 })

/-! ## The register window -/

/-- A CPU write of `v` to 0x4000 + `i`: the mirror, then what the register does (50_apu R250). The sprite-DMA event of
0x4014 is the bus's (20_memory R55). -/
def Apu.write (t : Vector Byte 32) (u : Apu) (i : BitVec 5) (v : Byte) : Apu :=
  let oldStrobe := u.strobe
  let u := u.setReg i v
  if i.toNat ≤ 0x13 then u.channelWrite t i v
  else if i = 0x15 then u.statusWrite v
  else if i = 0x16 then u.strobeWrite oldStrobe v
  else u

/-! ## The frame sequencer -/

/-- The length counter after one step of `dec`: unchanged under halt, else clamped at 0 (50_apu R270). -/
def lengthAfter (length dec : Nat) (halt : Bool) : Nat := if halt then length else length - dec

/-- Whether the step stops the channel: not under halt, and the counter is 0 after it (50_apu R270). -/
def lengthStops (length dec : Nat) (halt : Bool) : Bool := !halt && decide (length - dec = 0)

/-- The envelope step (50_apu R271). -/
def Envelope.step (e : Envelope) (g : ChanRegs) : Envelope :=
  if e.reset then { divider := g.nibble, counter := 15, reset := false }
  else if e.divider < 4 then
    { e with
      divider := g.nibble
      counter := if 0 < e.counter then e.counter - 1 else if g.halt then 15 else 0 }
  else { e with divider := e.divider - 4 }

/-- The period a firing sweep unit computes from `T`: a shifted copy subtracted or added, an integer (50_apu R272). -/
def ChanRegs.sweepTarget (g : ChanRegs) : Int :=
  let t : Int := g.period
  let d : Int := g.period >>> (g.r1.toNat % 8)
  if g.r1.getLsbD 3 then t - d else t + d

/-- The sweep step (50_apu R272). -/
def Pulse.sweepStep (c : Pulse) : Pulse :=
  if !c.regs.r1.getLsbD 7 then c
  else if c.regs.r1.toNat / 16 % 8 + 1 ≤ c.sweepCounter + 2 then
    let t := c.regs.sweepTarget
    if 0x7FF < t ∨ t < 8 then { c with sweepCounter := 0, stopped := true }
    else { c with sweepCounter := 0, regs := c.regs.setPeriod t.toNat }
  else { c with sweepCounter := c.sweepCounter + 2 }

/-- The pulse tick: length, envelope, sweep (50_apu R269). -/
def Pulse.tick (c : Pulse) : Pulse :=
  if c.stopped then c
  else
    Pulse.sweepStep
      { c with
        length := lengthAfter c.length 4 c.regs.halt
        stopped := lengthStops c.length 4 c.regs.halt
        env := c.env.step c.regs }

/-- The triangle tick; its halt bit is bit 7 of the first register (50_apu R275). -/
def Triangle.tick (c : Triangle) : Triangle :=
  if c.stopped then c
  else
    { c with
      length := lengthAfter c.length 4 (c.regs.r0.getLsbD 7)
      stopped := lengthStops c.length 4 (c.regs.r0.getLsbD 7) }

/-- The noise tick: length by 1, envelope (50_apu R278). -/
def Noise.tick (c : Noise) : Noise :=
  if c.stopped then c
  else
    { c with
      length := lengthAfter c.length 1 c.regs.halt
      stopped := lengthStops c.length 1 c.regs.halt
      env := c.env.step c.regs }

/-- The DMC counter step, once per scanline; the Bool says that it ran out with its interrupt enabled (50_apu R282). -/
def Dmc.scanline (c : Dmc) : Dmc × Bool :=
  if c.dmaLength = 0 then (c, false)
  else if c.dmaLength - 1 = 0 then
    if c.regs.r0.getLsbD 6 then ({ c with dmaLength := c.primeLength }, false)
    else ({ c with dmaLength := 0, stopped := true }, c.regs.r0.getLsbD 7)
  else ({ c with dmaLength := c.dmaLength - 1 }, false)

/-- The DMC part of `onHblank`, and whether it invokes the interrupt trigger (50_apu R252, R282). -/
def Apu.dmcScanline (u : Apu) : Apu × Bool :=
  let (c, irq) := u.dmc.scanline
  ({ u with dmc := c, dmcIrq := u.dmcIrq || irq }, irq)

/-- Whether the frame interrupt is inhibited: bit 6 of 0x4017 (50_apu R253). -/
def Apu.frameInhibited (u : Apu) : Bool := (u.reg 0x17).getLsbD 6

/-- The vblank tick, and whether it invokes the interrupt trigger (50_apu R252, R254). -/
def Apu.vblank (u : Apu) : Apu × Bool :=
  let u := { u with p1 := u.p1.tick, p2 := u.p2.tick, tri := u.tri.tick, noi := u.noi.tick }
  if u.frameInhibited then (u, false) else ({ u with frameIrq := true }, true)

/-! ## Reset, save and load -/

/-- `apu.reset()`: mirror 0 but for 0x40 at 0x17, flags clear, five channels reset, pads unchanged
(70_reset_and_hazards R332, 50_apu R288). -/
def Apu.reset (u : Apu) : Apu :=
  { u with
    regs := (Vector.replicate 32 0#8).set 0x17 0x40#8
    frameIrq := false
    dmcIrq := false
    p1 := .zero
    p2 := .zero
    tri := .zero
    noi := .zero
    dmc := .zero }

/-- A drawn bit. -/
def drawBit (n : Nat) : Bool := (Config.draw n).getLsbD 0

/-- A drawn number of at most `top`, `top` below 256. -/
def drawUpTo (top n : Nat) : Nat := (Config.draw n).toNat % (top + 1)

/-- Drawn channel registers, four draws from `n` on. -/
def ChanRegs.drawn (n : Nat) : ChanRegs :=
  { r0 := Config.draw n, r1 := Config.draw (n + 1), r2 := Config.draw (n + 2), r3 := Config.draw (n + 3) }

/-- A drawn envelope in the ranges of 10_state R34, three draws from `n` on. -/
def Envelope.drawn (n : Nat) : Envelope :=
  { divider := drawUpTo 15 n, counter := drawUpTo 15 (n + 1), reset := drawBit (n + 2) }

/-- A drawn pulse channel in the ranges of 10_state R34, eleven draws from `n` on. -/
def Pulse.drawn (n : Nat) : Pulse :=
  { regs := .drawn n, stopped := drawBit (n + 4), enabled := drawBit (n + 5), length := drawUpTo 255 (n + 6),
    env := .drawn (n + 7), sweepCounter := drawUpTo 8 (n + 10) }

/-- A drawn triangle channel in the ranges of 10_state R34, seven draws from `n` on. -/
def Triangle.drawn (n : Nat) : Triangle :=
  { regs := .drawn n, stopped := drawBit (n + 4), enabled := drawBit (n + 5), length := drawUpTo 127 (n + 6) }

/-- A drawn noise channel in the ranges of 10_state R34, ten draws from `n` on. -/
def Noise.drawn (n : Nat) : Noise :=
  { regs := .drawn n, stopped := drawBit (n + 4), enabled := drawBit (n + 5), length := drawUpTo 255 (n + 6),
    env := .drawn (n + 7) }

/-- A drawn DMC in the ranges of 10_state R34, seven draws from `n` on. -/
def Dmc.drawn (n : Nat) : Dmc :=
  { regs := .drawn n, stopped := drawBit (n + 4), enabled := drawBit (n + 5), dmaLength := drawUpTo 128 (n + 6) }

/-- How many draws `Apu.loaded` makes. -/
def apuLoadDraws : Nat := 50

/-- The APU after `apu.load` of a mirror: the mirror is the snapshot, the pads' masks stay, everything else is a draw,
draws from `n` on (70_reset_and_hazards R339). The free values keep the ranges of 10_state R34.
DESIGN CHOICE, log entry 16, unsafe. -/
def Apu.loaded (u : Apu) (regs : Vector Byte 32) (n : Nat) : Apu where
  regs := regs
  frameIrq := drawBit n
  dmcIrq := drawBit (n + 1)
  p1 := .drawn (n + 2)
  p2 := .drawn (n + 13)
  tri := .drawn (n + 24)
  noi := .drawn (n + 31)
  dmc := .drawn (n + 41)
  padStatus0 := u.padStatus0
  padStatus1 := u.padStatus1
  padShift0 := Config.draw (n + 48)
  padShift1 := Config.draw (n + 49)

end Sys2Proof.Machine
end

