-- ==== Sys2Proof/Machine/Flags.lean ====
section
/-! DEFINITION. The bits of P and every flag computation of the instruction set (10_state R22 to R24, R26; 42 R160, R164,
R167; 43 R187 to R190). Each computation maps the old P to the new P and leaves every bit it does not name. -/

namespace Sys2Proof.Machine

/-! ## The bits of P -/

/-- The bit position of a flag (10_state R22). -/
def Flag.bit : Flag → Nat
  | .n => 7
  | .v => 6
  | .r => 5
  | .b => 4
  | .d => 3
  | .i => 2
  | .z => 1
  | .c => 0

/-- The flag `f` of `p`. -/
def getFlag (p : Byte) (f : Flag) : Bool := p.getLsbD f.bit

/-- `p` with flag `f` set to `b`. -/
def setFlag (p : Byte) (f : Flag) (b : Bool) : Byte :=
  if b then p ||| (1#8 <<< f.bit) else p &&& ~~~(1#8 <<< f.bit)

/-! ## Flag computations -/

/-- `SetNZ(v)` (10_state R24). -/
def setNZ (p v : Byte) : Byte := setFlag (setFlag p .n (v.getLsbD 7)) .z (decide (v = 0))

/-- `AddWithCarry(a, m, P.C)`: the sum and the new P (42_logic_arith_compare R160). Binary whatever D holds. -/
def addWithCarry (a m p : Byte) : Byte × Byte :=
  let sum := a.toNat + m.toNat + (getFlag p .c).toNat
  let r := BitVec.ofNat 8 sum
  let p := setFlag p .c (decide (0xFF < sum))
  let p := setFlag p .v (a.getLsbD 7 == m.getLsbD 7 && r.getLsbD 7 != a.getLsbD 7)
  (r, setNZ p r)

/-- The compare of a register with `m`: N and Z from the masked difference, C when it is not negative (42 R167). -/
def compareFlags (r m p : Byte) : Byte :=
  let t : Int := (r.toNat : Int) - m.toNat
  setFlag (setNZ p (BitVec.ofInt 8 t)) .c (decide (0 ≤ t))

/-- BIT: Z from `A & m`, N and V from `m` (42_logic_arith_compare R164). -/
def bitFlags (a m p : Byte) : Byte :=
  setFlag (setFlag (setFlag p .z (decide (a &&& m = 0))) .n (m.getLsbD 7)) .v (m.getLsbD 6)

/-- The new value with its N and Z, and the bit shifted out in C (43_incdec_shift R187 to R190). -/
def shifted (v : Byte) (out : Bool) (p : Byte) : Byte × Byte := (v, setNZ (setFlag p .c out) v)

/-- ASL (43_incdec_shift R187). -/
def aslValue (m p : Byte) : Byte × Byte := shifted (m <<< 1) (m.getLsbD 7) p

/-- LSR (43_incdec_shift R188). -/
def lsrValue (m p : Byte) : Byte × Byte := shifted (m >>> 1) (m.getLsbD 0) p

/-- ROL: the old carry enters bit 0 (43_incdec_shift R189). -/
def rolValue (m p : Byte) : Byte × Byte :=
  shifted ((m <<< 1) ||| (if getFlag p .c then 0x01#8 else 0#8)) (m.getLsbD 7) p

/-- ROR: the old carry enters bit 7 (43_incdec_shift R190). -/
def rorValue (m p : Byte) : Byte × Byte :=
  shifted ((m >>> 1) ||| (if getFlag p .c then 0x80#8 else 0#8)) (m.getLsbD 0) p

/-- INC: one more mod 256 (43_incdec_shift R181). -/
def incValue (m p : Byte) : Byte × Byte := (m + 1, setNZ p (m + 1))

/-- DEC: one less mod 256 (43_incdec_shift R182). -/
def decValue (m p : Byte) : Byte × Byte := (m - 1, setNZ p (m - 1))

/-- The byte PHP and BRK push: B and R set (10_state R26, 41 R144). -/
def pushedWithBreak (p : Byte) : Byte := p ||| 0x30#8

/-- The byte NMI and IRQ entry push: B cleared, R as stored (10_state R26, 60_exceptions R303). -/
def pushedByInterrupt (p : Byte) : Byte := p &&& ~~~0x10#8

/-- P as PLP and RTI load it: bit 5 forced to 1, B from the byte (10_state R26, 41 R146). -/
def loadedStatus (v : Byte) : Byte := v ||| 0x20#8

end Sys2Proof.Machine
end

