-- ==== Sys2Proof/Machine/Mapper.lean ====
section
/-! DEFINITION. The MAPPER contract of 20_memory R62: claims, on_write, on_reset, resolve and irq of the board in the
machine. The NROM reference is 20_memory R65; any other board is free. -/

namespace Sys2Proof.Machine

/-- `prg_size` of the NROM reference, in bytes (20_memory R65). -/
def prgBytes : PrgSize → Nat
  | .k16 => 0x4000
  | .k32 => 0x8000

/-- The bank indices a write stores: each is masked into a valid index, index mod bank count (20_memory R62). -/
def maskBanks (id : Nat) (m : MapperState) : MapperState :=
  { m with banks := m.banks.mapIdx fun slot b => b % (Config.boardLastBank id slot + 1) }

/-- `init`: the mapper state at power-on (20_memory R62). -/
def mapperInit : Board → MapperState
  | .nrom _ => { banks := [], other := [] }
  | .custom id => Config.boardInit id

/-- `on_reset` (20_memory R62, 70_reset_and_hazards R333). -/
def mapperOnReset : Board → MapperState → MapperState
  | .nrom _, m => m
  | .custom id, m => Config.boardOnReset id m

/-- `claims`: a write range lies within 0x4020 to 0xFFFF (20_memory R62). -/
def mapperClaims : Board → Addr → Bool
  | .nrom _, _ => false
  | .custom id, a => decide (0x4020 ≤ a.toNat) && Config.boardClaims id a

/-- `on_write`: the new bank selection, every index masked (20_memory R62, R63). -/
def mapperOnWrite : Board → Addr → Byte → MapperState → MapperState
  | .nrom _, _, _, m => m
  | .custom id, a, v, m => maskBanks id (Config.boardOnWrite id a v m)

/-- The side effect of a read in the cartridge range; NROM has none (20_memory R60, 90_conflicts C6).
DEDUCED, log entry 17, safe. -/
def mapperOnRead : Board → Addr → MapperState → MapperState
  | .nrom _, _, m => m
  | .custom id, a, m => Config.boardOnRead id a m

/-- `resolve`: where the byte of a cartridge address is (20_memory R62; NROM: R65). -/
def mapperResolve : Board → Addr → MapperState → Location
  | .nrom size, a, _ =>
    if 0x8000 ≤ a.toNat then .prg ((a.toNat - 0x8000) % prgBytes size)
    else if 0x6000 ≤ a.toNat then .cartRam (a.toNat - 0x6000)
    else .unbacked
  | .custom id, a, m => Config.boardResolve id a m

/-- `irq`: the mapper's interrupt line; NROM has none (20_memory R64, R65). -/
def mapperIrq : Board → MapperState → Bool
  | .nrom _, _ => false
  | .custom id, m => Config.boardIrq id m

end Sys2Proof.Machine
end

