-- ==== Sys2Proof/Machine/Memory.lean ====
section
/-! DEFINITION. The one-byte operations over a memory in canonical form, and the finite address sets of the debug state
(10_state R28). -/

namespace Sys2Proof.Machine

/-! ## Memory -/

/-- What an address that a memory does not list reads as. The spec gives no power-on contents (10_state R45 draws them):
DESIGN CHOICE, log entry 1, unsafe. -/
def unlistedByte : Byte := 0x00#8

/-- The byte at `a`. -/
def Memory.read (m : Memory) (a : Nat) : Byte :=
  match m with
  | [] => unlistedByte
  | (b, w) :: rest => if a = b then w else Memory.read rest a

/-- `m` with `v` at the head position `a`: not listed where it is what an unlisted address reads as. -/
def Memory.put (a : Nat) (v : Byte) (rest : Memory) : Memory :=
  if v = unlistedByte then rest else (a, v) :: rest

/-- `m` with byte `v` at `a`, in canonical form again. -/
def Memory.write (m : Memory) (a : Nat) (v : Byte) : Memory :=
  match m with
  | [] => Memory.put a v []
  | (b, w) :: rest =>
    if a < b then Memory.put a v ((b, w) :: rest)
    else if a = b then Memory.put a v rest
    else (b, w) :: Memory.write rest a v

/-- The canonical form from address `lo` on: addresses strictly rising, no byte equal to the unlisted one. -/
def Memory.wfFrom (lo : Nat) (m : Memory) : Bool :=
  match m with
  | [] => true
  | (a, v) :: rest => decide (lo ≤ a) && decide (v ≠ unlistedByte) && Memory.wfFrom (a + 1) rest

/-- The canonical form of a memory. -/
def Memory.wf (m : Memory) : Bool := Memory.wfFrom 0 m

/-- Every listed address is below `n`. -/
def Memory.below (n : Nat) (m : Memory) : Bool := m.all fun c => decide (c.1 < n)

/-! ## Finite sets of addresses -/

/-- `s` with `a`, strictly rising. -/
def AddrSet.insert (a : Nat) (s : List Nat) : List Nat :=
  match s with
  | [] => [a]
  | b :: rest => if a < b then a :: b :: rest else if a = b then b :: rest else b :: AddrSet.insert a rest

/-- `s` without `a`. -/
def AddrSet.erase (a : Nat) (s : List Nat) : List Nat :=
  match s with
  | [] => []
  | b :: rest => if a = b then rest else b :: AddrSet.erase a rest

/-- Strictly rising from `lo` on. -/
def AddrSet.wfFrom (lo : Nat) (s : List Nat) : Bool :=
  match s with
  | [] => true
  | a :: rest => decide (lo ≤ a) && AddrSet.wfFrom (a + 1) rest

/-- The one form of a set: strictly rising. -/
def AddrSet.wf (s : List Nat) : Bool := AddrSet.wfFrom 0 s

end Sys2Proof.Machine
end

