-- ==== Sys2Proof/Machine/Ops.lean ====
section
/-! DEFINITION. The named operations over the state: registers, the bus, the stack, pauses, watchpoints, the one
interrupt entry shared by NMI, IRQ and BRK, the return from it, and the resets. -/

namespace Sys2Proof.Machine

/-! ## Registers -/

/-- `A <- v` (00_scope R9). -/
def State.setA (s : State) (v : Byte) : State := { s with a := v }

/-- `X <- v` (00_scope R9). -/
def State.setX (s : State) (v : Byte) : State := { s with x := v }

/-- `Y <- v` (00_scope R9). -/
def State.setY (s : State) (v : Byte) : State := { s with y := v }

/-- `S <- v` (00_scope R9). -/
def State.setSp (s : State) (v : Byte) : State := { s with sp := v }

/-- `P <- v` (00_scope R9). -/
def State.setP (s : State) (v : Byte) : State := { s with p := v }

/-- `PC <- v` (00_scope R9). -/
def State.setPc (s : State) (v : Addr) : State := { s with pc := v }

/-- One flag of P set to `b`. -/
def State.setFlag (s : State) (f : Flag) (b : Bool) : State := s.setP (Machine.setFlag s.p f b)

/-- `SetNZ(v)` on P (10_state R24). -/
def State.setNZ (s : State) (v : Byte) : State := s.setP (Machine.setNZ s.p v)

/-- The step returns `n` cycles; the ghost counter adds them (10_state R30, 30_encoding R102).
DESIGN CHOICE, log entry 12, safe. -/
def State.charge (s : State) (n : Nat) : State := { s with result := .cycles n, cycles := s.cycles + n }

/-! ## Draws, events, the interrupt trigger -/

/-- A draw: a free byte, and the counter advanced (20_memory R56). -/
def State.drawByte (s : State) : Byte × State := (Config.draw s.draws, { s with draws := s.draws + 1 })

/-- An event handed outside. DESIGN CHOICE, log entry 11, safe. -/
def State.emit (s : State) (e : Event) : State := { s with events := e :: s.events }

/-- `TriggerIrq()`: the event for the host, and nothing else in the CPU or the APU (50_apu R255). -/
def State.triggerIrq (s : State) : State := { s.emit .irqTrigger with irqTrigger := true }

/-- `TriggerIrq()` when `b` holds. -/
def State.triggerIf (s : State) (b : Bool) : State := if b then s.triggerIrq else s

/-- `mapper_state <- m`; a mapper line that this raises invokes the trigger (20_memory R64, 60_exceptions R306).
DEDUCED, log entry 17, unsafe. -/
def State.setMapper (s : State) (m : MapperState) : State :=
  ({ s with mapper := m } : State).triggerIf (!mapperIrq s.board s.mapper && mapperIrq s.board m)

/-! ## The bus -/

/-- The default region of an address (20_memory R53). -/
def decodeAddr (a : Addr) : Region :=
  if a.toNat < 0x2000 then .ram (a.toNat % 0x0800)
  else if a.toNat < 0x4000 then .ppu (0x2000 + a.toNat % 8)
  else if a.toNat < 0x4020 then .apu (a.setWidth 5)
  else .cart

/-- A PPU register read: the PPU oracle's byte (20_memory R54). -/
def ppuRead (reg : Nat) (s : State) : Byte × State :=
  (Config.ppuRead s.draws reg, { s with draws := s.draws + 1 })

/-- An APU read (50_apu R251): status and pads, else a draw. -/
def apuRead (i : BitVec 5) (s : State) : Byte × State :=
  if i = 0x15 then (s.apu.statusRead.1, { s with apu := s.apu.statusRead.2 })
  else if i = 0x16 then ((s.apu.padRead .pad0).1, { s with apu := (s.apu.padRead .pad0).2 })
  else if i = 0x17 then ((s.apu.padRead .pad1).1, { s with apu := (s.apu.padRead .pad1).2 })
  else s.drawByte

/-- An APU write (50_apu R250), with the sprite-DMA event of 0x4014 (20_memory R55). -/
def apuWrite (i : BitVec 5) (v : Byte) (s : State) : State :=
  let s := { s with apu := s.apu.write s.params.lengthTable i v }
  if i = 0x14 then s.emit (.spriteDma v) else s

/-- The byte at a resolved location; a draw where nothing backs the address (20_memory R52, R56). -/
def readLocation (l : Location) (s : State) : Byte × State :=
  match l with
  | .prg off => (s.prgRom.read off, s)
  | .cartRam off => (s.cartRam.read off, s)
  | .unbacked => s.drawByte

/-- A read in the cartridge range: the byte of the bank the mapper selects, then the board's read side effect
(20_memory R52, R53, R60). -/
def cartRead (a : Addr) (s : State) : Byte × State :=
  let (b, s1) := readLocation (mapperResolve s.board a s.mapper) s
  (b, s1.setMapper (mapperOnRead s1.board a s1.mapper))

/-- A write in the cartridge range: the mapper's intercept where it claims the address, and that alone; else cartridge
RAM below 0x8000 stores, and everything else ignores it (20_memory R52, R53, R56, R63).
DEDUCED, log entry 17, unsafe. -/
def cartWrite (a : Addr) (v : Byte) (s : State) : State :=
  if mapperClaims s.board a then s.setMapper (mapperOnWrite s.board a v s.mapper)
  else if a.toNat < 0x8000 then
    match mapperResolve s.board a s.mapper with
    | .cartRam off => { s with cartRam := s.cartRam.write off v }
    | .prg _ => s
    | .unbacked => s
  else s

/-- `MemRead(a, 1)`: one bus `read8` with its side effects (00_scope R9, 20_memory R50, R52). -/
def busRead (a : Addr) (s : State) : Byte × State :=
  match decodeAddr a with
  | .ram off => (s.ram.read off, s)
  | .ppu reg => ppuRead reg s
  | .apu i => apuRead i s
  | .cart => cartRead a s

/-- `MemWrite(a, 1, v)`: one bus `write8` with its side effects (00_scope R9, 20_memory R50, R52). -/
def busWrite (a : Addr) (v : Byte) (s : State) : State :=
  match decodeAddr a with
  | .ram off => { s with ram := s.ram.write off v }
  | .ppu reg => s.emit (.ppuWrite reg v)
  | .apu i => apuWrite i v s
  | .cart => cartWrite a v s

/-- `Read16(a)`: the low byte at `a` first, then the high byte at `a + 1` (00_scope R9). -/
def busRead16 (a : Addr) (s : State) : Addr × State :=
  let (lo, s1) := busRead a s
  let (hi, s2) := busRead (a + 1) s1
  (wordOf hi lo, s2)

/-! ## Memory cells, without side effects -/

/-- The byte a memory cell holds. -/
def State.cellByte (s : State) : Cell → Byte
  | .ram off => s.ram.read off
  | .cartRam off => s.cartRam.read off
  | .prg off => s.prgRom.read off

/-- The memory cell a bus write to `a` would store to, if it stores to one (20_memory R52, R53). -/
def State.writeCell (s : State) (a : Addr) : Option Cell :=
  match decodeAddr a with
  | .ram off => some (.ram off)
  | .ppu _ => none
  | .apu _ => none
  | .cart =>
    if mapperClaims s.board a then none
    else if a.toNat < 0x8000 then
      match mapperResolve s.board a s.mapper with
      | .cartRam off => some (.cartRam off)
      | .prg _ => none
      | .unbacked => none
    else none

/-- The memory cell a bus read of `a` reads with no side effect, if there is one: RAM, or what the NROM reference
backs (20_memory R53, R65). -/
def State.readCell (s : State) (a : Addr) : Option Cell :=
  match decodeAddr a with
  | .ram off => some (.ram off)
  | .ppu _ => none
  | .apu _ => none
  | .cart =>
    match s.board with
    | .custom _ => none
    | .nrom size =>
      match mapperResolve (.nrom size) a s.mapper with
      | .prg off => some (.prg off)
      | .cartRam off => some (.cartRam off)
      | .unbacked => none

/-! ## The stack (00_scope R9, 10_state R21) -/

/-- The address of the stack slot S points to, always in page 1. -/
def stackAddr (sp : Byte) : Addr := wordOf 0x01#8 sp

/-- `Push(v)`: write at 0x0100 + S, then decrement S. -/
def push (v : Byte) (s : State) : State :=
  (busWrite (stackAddr s.sp) v s).setSp (s.sp - 1)

/-- `Pop()`: increment S, then read at 0x0100 + S. -/
def pop (s : State) : Byte × State :=
  busRead (stackAddr (s.sp + 1)) (s.setSp (s.sp + 1))

/-- A word pushed high byte first (20_memory R57). -/
def pushWord (w : Addr) (s : State) : State := push (loByte w) (push (hiByte w) s)

/-- A word popped low byte first. -/
def popWord (s : State) : Addr × State :=
  let (lo, s1) := pop s
  let (hi, s2) := pop s1
  (wordOf hi lo, s2)

/-! ## Pauses and watchpoints -/

/-- `raise Pause(reason)` (00_scope R9, 60_exceptions R300). -/
def State.pause (s : State) (r : PauseReason) : State := { s with paused := true, pauseReason := some r }

/-- The watch set of a kind of access (10_state R28). -/
def State.watchSet (s : State) : Access → List Nat
  | .read => s.readWatch
  | .write => s.writeWatch

/-- A data access at `a`: the first watched one of the instruction is kept (60_exceptions R315). -/
def State.noteAccess (s : State) (a : Addr) (k : Access) : State :=
  if s.watchHit = none ∧ a.toNat ∈ s.watchSet k then { s with watchHit := some (a, k) } else s

/-- An execute-phase data read at an effective address (60_exceptions R315). -/
def dataRead (a : Addr) (s : State) : Byte × State := busRead a (s.noteAccess a .read)

/-- An execute-phase data write at an effective address (60_exceptions R315). -/
def dataWrite (a : Addr) (v : Byte) (s : State) : State := busWrite a v (s.noteAccess a .write)

/-! ## Interrupt entry and return -/

/-- Entry to an interrupt: push the return address high byte first, push the status byte, set I, load PC from the vector
(60_exceptions R303 to R305, 44_control_flow R213). -/
def enterInterrupt (vector ret : Addr) (status : Byte) (s : State) : State :=
  let s1 := (push status (pushWord ret s)).setFlag .i true
  let (target, s2) := busRead16 vector s1
  s2.setPc target

/-- Return from an interrupt: status, then PC low, then PC high (44_control_flow R212, 60_exceptions R310). -/
def returnFromInterrupt (s : State) : State :=
  let (v, s1) := pop s
  let (w, s2) := popWord (s1.setP (loadedStatus v))
  s2.setPc w

/-- An accepted hardware entry: B cleared in the pushed byte, and the ghost counter's `INTERRUPT_CYCLES`
(60_exceptions R303, R304, 70_reset_and_hazards R345). -/
def hardwareEntry (vector : Addr) (s : State) : State :=
  let s1 := enterInterrupt vector s.pc (pushedByInterrupt s.p) s
  { s1 with cycles := s1.cycles + s1.params.interruptCycles }

/-- `nmi()` (60_exceptions R303). -/
def nmiEntry (s : State) : State :=
  let s1 := { hardwareEntry Config.vecNmi s with result := .nothing }
  if s1.bpNmi then s1.pause .nmiBreakpoint else s1

/-- `requestIrq()` (60_exceptions R304). -/
def requestIrq (s : State) : State :=
  if getFlag s.p .i then { s with result := .accepted false }
  else { hardwareEntry Config.vecIrq s with result := .accepted true }

/-- `irq_asserted` (10_state R31). -/
def State.irqAsserted (s : State) : Bool := s.apu.frameIrq || s.apu.dmcIrq || mapperIrq s.board s.mapper

/-! ## Resets (70_reset_and_hazards R330 to R333) -/

/-- `cpu.reset()` (70_reset_and_hazards R330). -/
def cpuReset (s : State) : State :=
  let (target, s1) := busRead16 Config.vecReset ((s.setP 0x34#8).setSp (s.sp - 3))
  { s1.setPc target with stepLog := [] }

/-- `apu.reset()` (70_reset_and_hazards R332). -/
def apuReset (s : State) : State := { s with apu := s.apu.reset }

/-- `system_reset()`: mapper, APU, CPU (70_reset_and_hazards R333). -/
def systemReset (s : State) : State :=
  cpuReset (apuReset (s.setMapper (mapperOnReset s.board s.mapper)))

/-! ## The frame sequencer -/

/-- `onHblank(n)` (50_apu R252): the DMC step, then at the vblank scanline the ticks and the frame interrupt. -/
def onHblank (n : Nat) (s : State) : State :=
  let (u1, dmcTrigger) := s.apu.dmcScanline
  let s1 := ({ s with apu := u1 } : State).triggerIf dmcTrigger
  if n = s1.params.vblankScanline then
    let (u2, frameTrigger) := s1.apu.vblank
    ({ s1 with apu := u2 } : State).triggerIf frameTrigger
  else s1

end Sys2Proof.Machine
end

