-- ==== Sys2Proof/Machine/Operands.lean ====
section
/-! DEFINITION. The addressing modes (30_encoding R92 to R100), the operand load and store every instruction uses
(30_encoding R101), and the common shape of an instruction: PC advance, address phase, execute phase, cycles. -/

namespace Sys2Proof.Machine

/-- A zero-page address (30_encoding R94). -/
def zeroPage (b : Byte) : Addr := wordOf 0#8 b

/-- An indexed absolute address, and whether it left the page of its base (30_encoding R96). -/
def indexed (base : Addr) (i : Byte) : EffAddr :=
  let ea := base + i.setWidth 16
  { addr := some ea, crossed := decide (hiByte ea ≠ hiByte base) }

/-- A pointer read from page 0: its high byte is at the next address mod 256 (30_encoding R97, R98). -/
def zeroPagePointer (b : Byte) (s : State) : Addr × State :=
  let (lo, s1) := busRead (zeroPage b) s
  let (hi, s2) := busRead (zeroPage (b + 1)) s1
  (wordOf hi lo, s2)

/-- The JMP pointer: its high byte is read from the same page as its low byte (30_encoding R99). -/
def jumpPointer (ptr : Addr) (s : State) : Addr × State :=
  let (lo, s1) := busRead ptr s
  let (hi, s2) := busRead (wordOf (hiByte ptr) (loByte ptr + 1)) s1
  (wordOf hi lo, s2)

/-- The address phase (30_encoding R92 to R100). PC is already the address of the byte after the instruction. -/
def resolve (o : Operand) (s : State) : EffAddr × State :=
  match o with
  | .imp => ({ addr := none, crossed := false }, s)
  | .acc => ({ addr := none, crossed := false }, s)
  | .imm _ => ({ addr := some (s.pc - 1), crossed := false }, s)
  | .zp b => ({ addr := some (zeroPage b), crossed := false }, s)
  | .zpx b => ({ addr := some (zeroPage (b + s.x)), crossed := false }, s)
  | .zpy b => ({ addr := some (zeroPage (b + s.y)), crossed := false }, s)
  | .abs w => ({ addr := some w, crossed := false }, s)
  | .absx w => (indexed w s.x, s)
  | .absy w => (indexed w s.y, s)
  | .indx b =>
    let (w, s1) := zeroPagePointer (b + s.x) s
    ({ addr := some w, crossed := false }, s1)
  | .indy b =>
    let (w, s1) := zeroPagePointer b s
    (indexed w s1.y, s1)
  | .ind w =>
    let (t, s1) := jumpPointer w s
    ({ addr := some t, crossed := false }, s1)
  | .rel d => ({ addr := some (s.pc + BitVec.ofInt 16 d), crossed := false }, s)

/-- `LoadOperand()`: the immediate byte, A in accumulator mode, else a data read at EA (30_encoding R101, 43 R180).
A mode with no address reads nothing. -/
def loadOperand (o : Operand) (ea : Option Addr) (s : State) : Byte × State :=
  match o, ea with
  | .imm v, _ => (v, s)
  | .acc, _ => (s.a, s)
  | _, some a => dataRead a s
  | _, none => (0#8, s)

/-- `StoreOperand(v)`: A in accumulator mode, else a data write at EA (30_encoding R101, 43 R180). A mode with no
address writes nothing. -/
def storeOperand (o : Operand) (ea : Option Addr) (v : Byte) (s : State) : State :=
  match o, ea with
  | .acc, _ => s.setA v
  | _, some a => dataWrite a v s
  | _, none => s

/-- The PC advance by the instruction's length (10_state R25, 30_encoding R101). -/
def State.advance (s : State) (o : Operand) : State := s.setPc (s.pc + BitVec.ofNat 16 o.length)

/-- The state in which the execute phase starts, with the effective address: PC advanced, address phase done. -/
def addressed (o : Operand) (s : State) : EffAddr × State := resolve o (s.advance o)

/-- The common shape of an instruction (30_encoding R101, R102): PC advance, address phase, execute phase `body`, and
the base cycles with one more where the row takes the page-cross penalty and the address phase crossed (R103). -/
def runForm (o : Operand) (base : Nat) (penalty : Bool) (body : Option Addr → State → State) (s : State) : Answer :=
  let (e, s1) := addressed o s
  .next ((body e.addr s1).charge (base + if penalty && e.crossed then 1 else 0))

/-- An instruction that uses its operand's value: `body m` runs after `m <- LoadOperand()` (30_encoding R101). -/
def runLoad (o : Operand) (base : Nat) (penalty : Bool) (body : Byte → State → State) (s : State) : Answer :=
  runForm o base penalty (fun ea s1 => body (loadOperand o ea s1).1 (loadOperand o ea s1).2) s

/-- A store of `v`, computed after the address phase (30_encoding R101, 20_memory R59). -/
def runStore (o : Operand) (base : Nat) (v : State → Byte) (s : State) : Answer :=
  runForm o base false (fun ea s1 => storeOperand o ea (v s1) s1) s

/-- `RMW(f)`: one read, then one write of the same operand; `f` gives the new value and the new P (43 R180). -/
def runModify (o : Operand) (base : Nat) (f : Byte → Byte → Byte × Byte) (s : State) : Answer :=
  runForm o base false
    (fun ea s1 =>
      let (m, s2) := loadOperand o ea s1
      let (v, p) := f m s2.p
      (storeOperand o ea v s2).setP p)
    s

/-- An implied-mode instruction with execute phase `body` (30_encoding R92). -/
def runImplied (base : Nat) (body : State → State) (s : State) : Answer :=
  runForm .imp base false (fun _ s1 => body s1) s

/-- A jump to the effective address (44_control_flow R209); no address leaves PC. -/
def jumpTo (ea : Option Addr) (s : State) : State :=
  match ea with
  | some a => s.setPc a
  | none => s

/-- The common branch rule (44_control_flow R200): base 2, one more when taken, one more when the target's page differs
from the page of the byte after the branch. -/
def runBranch (d : Int) (cond : Byte → Bool) (s : State) : Answer :=
  let (e, s1) := addressed (.rel d) s
  if cond s1.p then
    let s2 := jumpTo e.addr s1
    .next (s2.charge (2 + 1 + if hiByte s1.pc ≠ hiByte s2.pc then 1 else 0))
  else .next (s1.charge 2)

end Sys2Proof.Machine
end

