-- ==== Sys2Proof/Machine/Arith.lean ====
section
/-! DEFINITION. ADC and SBC over the one adder; SBC adds the one's complement of the operand (42_logic_arith_compare R160, R165, R166). -/

namespace Sys2Proof.Machine

/-- The execute phase of ADC: `A <- AddWithCarry(A, m, P.C)` (42 R165). -/
def adcBody (m : Byte) (s : State) : State :=
  let (r, p) := addWithCarry s.a m s.p
  (s.setA r).setP p

/-- The execute phase of SBC: `A <- AddWithCarry(A, 255 - m, P.C)` (42 R166). -/
def sbcBody (m : Byte) (s : State) : State := adcBody (255#8 - m) s

/-- `ADC #$nn`, opcode 69 (42 R165). -/
def execAdcImm (v : Byte) (s : State) : Answer :=
  runLoad (.imm v) 2 false adcBody s

/-- `ADC $nn`, opcode 65 (42 R165). -/
def execAdcZp (b : Byte) (s : State) : Answer :=
  runLoad (.zp b) 3 false adcBody s

/-- `ADC $nn,X`, opcode 75 (42 R165). -/
def execAdcZpx (b : Byte) (s : State) : Answer :=
  runLoad (.zpx b) 4 false adcBody s

/-- `ADC $nnnn`, opcode 6D (42 R165). -/
def execAdcAbs (w : Addr) (s : State) : Answer :=
  runLoad (.abs w) 4 false adcBody s

/-- `ADC $nnnn,X`, opcode 7D (42 R165). -/
def execAdcAbsx (w : Addr) (s : State) : Answer :=
  runLoad (.absx w) 4 true adcBody s

/-- `ADC $nnnn,Y`, opcode 79 (42 R165). -/
def execAdcAbsy (w : Addr) (s : State) : Answer :=
  runLoad (.absy w) 4 true adcBody s

/-- `ADC ($nn,X)`, opcode 61 (42 R165). -/
def execAdcIndx (b : Byte) (s : State) : Answer :=
  runLoad (.indx b) 6 false adcBody s

/-- `ADC ($nn),Y`, opcode 71 (42 R165). -/
def execAdcIndy (b : Byte) (s : State) : Answer :=
  runLoad (.indy b) 5 true adcBody s

/-- `SBC #$nn`, opcode E9 (42 R166). -/
def execSbcImm (v : Byte) (s : State) : Answer :=
  runLoad (.imm v) 2 false sbcBody s

/-- `SBC $nn`, opcode E5 (42 R166). -/
def execSbcZp (b : Byte) (s : State) : Answer :=
  runLoad (.zp b) 3 false sbcBody s

/-- `SBC $nn,X`, opcode F5 (42 R166). -/
def execSbcZpx (b : Byte) (s : State) : Answer :=
  runLoad (.zpx b) 4 false sbcBody s

/-- `SBC $nnnn`, opcode ED (42 R166). -/
def execSbcAbs (w : Addr) (s : State) : Answer :=
  runLoad (.abs w) 4 false sbcBody s

/-- `SBC $nnnn,X`, opcode FD (42 R166). -/
def execSbcAbsx (w : Addr) (s : State) : Answer :=
  runLoad (.absx w) 4 true sbcBody s

/-- `SBC $nnnn,Y`, opcode F9 (42 R166). -/
def execSbcAbsy (w : Addr) (s : State) : Answer :=
  runLoad (.absy w) 4 true sbcBody s

/-- `SBC ($nn,X)`, opcode E1 (42 R166). -/
def execSbcIndx (b : Byte) (s : State) : Answer :=
  runLoad (.indx b) 6 false sbcBody s

/-- `SBC ($nn),Y`, opcode F1 (42 R166). -/
def execSbcIndy (b : Byte) (s : State) : Answer :=
  runLoad (.indy b) 5 true sbcBody s

end Sys2Proof.Machine
end

