-- ==== Sys2Proof/Machine/Branch.lean ====
section
/-! DEFINITION. the eight conditional branches over the common rule (44_control_flow R200 to R208). -/

namespace Sys2Proof.Machine

/-- `BPL label`, opcode 10 (44 R201). -/
def execBpl (d : Int) (s : State) : Answer :=
  runBranch d (fun p => !getFlag p .n) s

/-- `BMI label`, opcode 30 (44 R202). -/
def execBmi (d : Int) (s : State) : Answer :=
  runBranch d (fun p => getFlag p .n) s

/-- `BVC label`, opcode 50 (44 R203). -/
def execBvc (d : Int) (s : State) : Answer :=
  runBranch d (fun p => !getFlag p .v) s

/-- `BVS label`, opcode 70 (44 R204). -/
def execBvs (d : Int) (s : State) : Answer :=
  runBranch d (fun p => getFlag p .v) s

/-- `BCC label`, opcode 90 (44 R205). -/
def execBcc (d : Int) (s : State) : Answer :=
  runBranch d (fun p => !getFlag p .c) s

/-- `BCS label`, opcode B0 (44 R206). -/
def execBcs (d : Int) (s : State) : Answer :=
  runBranch d (fun p => getFlag p .c) s

/-- `BNE label`, opcode D0 (44 R207). -/
def execBne (d : Int) (s : State) : Answer :=
  runBranch d (fun p => !getFlag p .z) s

/-- `BEQ label`, opcode F0 (44 R208). -/
def execBeq (d : Int) (s : State) : Answer :=
  runBranch d (fun p => getFlag p .z) s

end Sys2Proof.Machine
end

