-- ==== Sys2Proof/Machine/Compare.lean ====
section
/-! DEFINITION. CMP, CPX, CPY: no register changes, V unchanged (42_logic_arith_compare R167 to R169). -/

namespace Sys2Proof.Machine

/-- The execute phase of a compare of register `r` with `m`: only flags (42 R167 to R169). -/
def compareBody (r : State → Byte) (m : Byte) (s : State) : State := s.setP (compareFlags (r s) m s.p)

/-- `CMP #$nn`, opcode C9 (42 R167). -/
def execCmpImm (v : Byte) (s : State) : Answer :=
  runLoad (.imm v) 2 false (compareBody State.a) s

/-- `CMP $nn`, opcode C5 (42 R167). -/
def execCmpZp (b : Byte) (s : State) : Answer :=
  runLoad (.zp b) 3 false (compareBody State.a) s

/-- `CMP $nn,X`, opcode D5 (42 R167). -/
def execCmpZpx (b : Byte) (s : State) : Answer :=
  runLoad (.zpx b) 4 false (compareBody State.a) s

/-- `CMP $nnnn`, opcode CD (42 R167). -/
def execCmpAbs (w : Addr) (s : State) : Answer :=
  runLoad (.abs w) 4 false (compareBody State.a) s

/-- `CMP $nnnn,X`, opcode DD (42 R167). -/
def execCmpAbsx (w : Addr) (s : State) : Answer :=
  runLoad (.absx w) 4 true (compareBody State.a) s

/-- `CMP $nnnn,Y`, opcode D9 (42 R167). -/
def execCmpAbsy (w : Addr) (s : State) : Answer :=
  runLoad (.absy w) 4 true (compareBody State.a) s

/-- `CMP ($nn,X)`, opcode C1 (42 R167). -/
def execCmpIndx (b : Byte) (s : State) : Answer :=
  runLoad (.indx b) 6 false (compareBody State.a) s

/-- `CMP ($nn),Y`, opcode D1 (42 R167). -/
def execCmpIndy (b : Byte) (s : State) : Answer :=
  runLoad (.indy b) 5 true (compareBody State.a) s

/-- `CPX #$nn`, opcode E0 (42 R168). -/
def execCpxImm (v : Byte) (s : State) : Answer :=
  runLoad (.imm v) 2 false (compareBody State.x) s

/-- `CPX $nn`, opcode E4 (42 R168). -/
def execCpxZp (b : Byte) (s : State) : Answer :=
  runLoad (.zp b) 3 false (compareBody State.x) s

/-- `CPX $nnnn`, opcode EC (42 R168). -/
def execCpxAbs (w : Addr) (s : State) : Answer :=
  runLoad (.abs w) 4 false (compareBody State.x) s

/-- `CPY #$nn`, opcode C0 (42 R169). -/
def execCpyImm (v : Byte) (s : State) : Answer :=
  runLoad (.imm v) 2 false (compareBody State.y) s

/-- `CPY $nn`, opcode C4 (42 R169). -/
def execCpyZp (b : Byte) (s : State) : Answer :=
  runLoad (.zp b) 3 false (compareBody State.y) s

/-- `CPY $nnnn`, opcode CC (42 R169). -/
def execCpyAbs (w : Addr) (s : State) : Answer :=
  runLoad (.abs w) 4 false (compareBody State.y) s

end Sys2Proof.Machine
end

