-- ==== Sys2Proof/Machine/Control.lean ====
section
/-! DEFINITION. BRK and NOP (44_control_flow R213, R214). -/

namespace Sys2Proof.Machine

/-- The execute phase of BRK: the interrupt entry through the IRQ vector with return address `pc0 + 2` and B and R set
in the pushed byte (44 R213). PC is already `pc0 + 1`. -/
def brkBody (s : State) : State := enterInterrupt Config.vecIrq (s.pc + 1) (pushedWithBreak s.p) s

/-- `BRK`, opcode 00 (44 R213). -/
def execBrk (s : State) : Answer :=
  runImplied 7 brkBody s

/-- `NOP`, opcode EA (44 R214). -/
def execNop (s : State) : Answer :=
  runImplied 2 id s

end Sys2Proof.Machine
end

