-- ==== Sys2Proof/Machine/FlagOps.lean ====
section
/-! DEFINITION. CLC, SEC, CLI, SEI, CLD, SED, CLV: one bit of P each (45_flag_ops R230 to R236). -/

namespace Sys2Proof.Machine

/-- `CLC`, opcode 18 (45 R230). -/
def execClc (s : State) : Answer :=
  runImplied 2 (fun s1 => s1.setFlag .c false) s

/-- `SEC`, opcode 38 (45 R231). -/
def execSec (s : State) : Answer :=
  runImplied 2 (fun s1 => s1.setFlag .c true) s

/-- `CLI`, opcode 58 (45 R232). -/
def execCli (s : State) : Answer :=
  runImplied 2 (fun s1 => s1.setFlag .i false) s

/-- `SEI`, opcode 78 (45 R233). -/
def execSei (s : State) : Answer :=
  runImplied 2 (fun s1 => s1.setFlag .i true) s

/-- `CLD`, opcode D8 (45 R234). -/
def execCld (s : State) : Answer :=
  runImplied 2 (fun s1 => s1.setFlag .d false) s

/-- `SED`, opcode F8 (45 R235). -/
def execSed (s : State) : Answer :=
  runImplied 2 (fun s1 => s1.setFlag .d true) s

/-- `CLV`, opcode B8 (45 R236). -/
def execClv (s : State) : Answer :=
  runImplied 2 (fun s1 => s1.setFlag .v false) s

end Sys2Proof.Machine
end

