-- ==== Sys2Proof/Machine/IncDec.lean ====
section
/-! DEFINITION. INC, DEC on memory; INX, INY, DEX, DEY (43_incdec_shift R180 to R186). -/

namespace Sys2Proof.Machine

/-- The execute phase of INX, INY, DEX, DEY: the register takes the new value, N and Z follow it (43 R183 to R186). -/
def stepRegister (get : State → Byte) (set : State → Byte → State) (f : Byte → Byte → Byte × Byte) (s : State) : State :=
  let (v, p) := f (get s) s.p
  (set s v).setP p

/-- `INC $nn`, opcode E6 (43 R181). -/
def execIncZp (b : Byte) (s : State) : Answer :=
  runModify (.zp b) 5 incValue s

/-- `INC $nn,X`, opcode F6 (43 R181). -/
def execIncZpx (b : Byte) (s : State) : Answer :=
  runModify (.zpx b) 6 incValue s

/-- `INC $nnnn`, opcode EE (43 R181). -/
def execIncAbs (w : Addr) (s : State) : Answer :=
  runModify (.abs w) 6 incValue s

/-- `INC $nnnn,X`, opcode FE (43 R181). -/
def execIncAbsx (w : Addr) (s : State) : Answer :=
  runModify (.absx w) 7 incValue s

/-- `DEC $nn`, opcode C6 (43 R182). -/
def execDecZp (b : Byte) (s : State) : Answer :=
  runModify (.zp b) 5 decValue s

/-- `DEC $nn,X`, opcode D6 (43 R182). -/
def execDecZpx (b : Byte) (s : State) : Answer :=
  runModify (.zpx b) 6 decValue s

/-- `DEC $nnnn`, opcode CE (43 R182). -/
def execDecAbs (w : Addr) (s : State) : Answer :=
  runModify (.abs w) 6 decValue s

/-- `DEC $nnnn,X`, opcode DE (43 R182). -/
def execDecAbsx (w : Addr) (s : State) : Answer :=
  runModify (.absx w) 7 decValue s

/-- `INX`, opcode E8 (43 R183). -/
def execInx (s : State) : Answer :=
  runImplied 2 (stepRegister State.x State.setX incValue) s

/-- `INY`, opcode C8 (43 R184). -/
def execIny (s : State) : Answer :=
  runImplied 2 (stepRegister State.y State.setY incValue) s

/-- `DEX`, opcode CA (43 R185). -/
def execDex (s : State) : Answer :=
  runImplied 2 (stepRegister State.x State.setX decValue) s

/-- `DEY`, opcode 88 (43 R186). -/
def execDey (s : State) : Answer :=
  runImplied 2 (stepRegister State.y State.setY decValue) s

end Sys2Proof.Machine
end

