-- ==== Sys2Proof/Machine/Jump.lean ====
section
/-! DEFINITION. JMP, JSR, RTS, RTI (44_control_flow R209 to R212). -/

namespace Sys2Proof.Machine

/-- The execute phase of JSR: push `PC - 1`, the address of its last byte, then jump (44 R210). -/
def jsrBody (ea : Option Addr) (s : State) : State := jumpTo ea (pushWord (s.pc - 1) s)

/-- The execute phase of RTS: pop the word, go one past it (44 R211). -/
def rtsBody (s : State) : State :=
  let (w, s1) := popWord s
  s1.setPc (w + 1)

/-- `JMP $nnnn`, opcode 4C (44 R209). -/
def execJmpAbs (w : Addr) (s : State) : Answer :=
  runForm (.abs w) 3 false jumpTo s

/-- `JMP ($nnnn)`, opcode 6C (44 R209). -/
def execJmpInd (w : Addr) (s : State) : Answer :=
  runForm (.ind w) 5 false jumpTo s

/-- `JSR $nnnn`, opcode 20 (44 R210). -/
def execJsr (w : Addr) (s : State) : Answer :=
  runForm (.abs w) 6 false jsrBody s

/-- `RTS`, opcode 60 (44 R211). -/
def execRts (s : State) : Answer :=
  runImplied 6 rtsBody s

/-- `RTI`, opcode 40 (44 R212). -/
def execRti (s : State) : Answer :=
  runImplied 6 returnFromInterrupt s

end Sys2Proof.Machine
end

