-- ==== Sys2Proof/Machine/Load.lean ====
section
/-! DEFINITION. LDA, LDX, LDY: the register takes the operand, N and Z follow it (41_load_store_transfer R131 to R133). -/

namespace Sys2Proof.Machine

/-- The execute phase of a load: `set m; SetNZ(m)` (41 R131 to R133). -/
def loadBody (set : State → Byte → State) (m : Byte) (s : State) : State := (set s m).setNZ m

/-- `LDA #$nn`, opcode A9 (41 R131). -/
def execLdaImm (v : Byte) (s : State) : Answer :=
  runLoad (.imm v) 2 false (loadBody State.setA) s

/-- `LDA $nn`, opcode A5 (41 R131). -/
def execLdaZp (b : Byte) (s : State) : Answer :=
  runLoad (.zp b) 3 false (loadBody State.setA) s

/-- `LDA $nn,X`, opcode B5 (41 R131). -/
def execLdaZpx (b : Byte) (s : State) : Answer :=
  runLoad (.zpx b) 4 false (loadBody State.setA) s

/-- `LDA $nnnn`, opcode AD (41 R131). -/
def execLdaAbs (w : Addr) (s : State) : Answer :=
  runLoad (.abs w) 4 false (loadBody State.setA) s

/-- `LDA $nnnn,X`, opcode BD (41 R131). -/
def execLdaAbsx (w : Addr) (s : State) : Answer :=
  runLoad (.absx w) 4 true (loadBody State.setA) s

/-- `LDA $nnnn,Y`, opcode B9 (41 R131). -/
def execLdaAbsy (w : Addr) (s : State) : Answer :=
  runLoad (.absy w) 4 true (loadBody State.setA) s

/-- `LDA ($nn,X)`, opcode A1 (41 R131). -/
def execLdaIndx (b : Byte) (s : State) : Answer :=
  runLoad (.indx b) 6 false (loadBody State.setA) s

/-- `LDA ($nn),Y`, opcode B1 (41 R131). -/
def execLdaIndy (b : Byte) (s : State) : Answer :=
  runLoad (.indy b) 5 true (loadBody State.setA) s

/-- `LDX #$nn`, opcode A2 (41 R132). -/
def execLdxImm (v : Byte) (s : State) : Answer :=
  runLoad (.imm v) 2 false (loadBody State.setX) s

/-- `LDX $nn`, opcode A6 (41 R132). -/
def execLdxZp (b : Byte) (s : State) : Answer :=
  runLoad (.zp b) 3 false (loadBody State.setX) s

/-- `LDX $nn,Y`, opcode B6 (41 R132). -/
def execLdxZpy (b : Byte) (s : State) : Answer :=
  runLoad (.zpy b) 4 false (loadBody State.setX) s

/-- `LDX $nnnn`, opcode AE (41 R132). -/
def execLdxAbs (w : Addr) (s : State) : Answer :=
  runLoad (.abs w) 4 false (loadBody State.setX) s

/-- `LDX $nnnn,Y`, opcode BE (41 R132). -/
def execLdxAbsy (w : Addr) (s : State) : Answer :=
  runLoad (.absy w) 4 true (loadBody State.setX) s

/-- `LDY #$nn`, opcode A0 (41 R133). -/
def execLdyImm (v : Byte) (s : State) : Answer :=
  runLoad (.imm v) 2 false (loadBody State.setY) s

/-- `LDY $nn`, opcode A4 (41 R133). -/
def execLdyZp (b : Byte) (s : State) : Answer :=
  runLoad (.zp b) 3 false (loadBody State.setY) s

/-- `LDY $nn,X`, opcode B4 (41 R133). -/
def execLdyZpx (b : Byte) (s : State) : Answer :=
  runLoad (.zpx b) 4 false (loadBody State.setY) s

/-- `LDY $nnnn`, opcode AC (41 R133). -/
def execLdyAbs (w : Addr) (s : State) : Answer :=
  runLoad (.abs w) 4 false (loadBody State.setY) s

/-- `LDY $nnnn,X`, opcode BC (41 R133). -/
def execLdyAbsx (w : Addr) (s : State) : Answer :=
  runLoad (.absx w) 4 true (loadBody State.setY) s

end Sys2Proof.Machine
end

