-- ==== Sys2Proof/Machine/Logic.lean ====
section
/-! DEFINITION. AND, ORA, EOR, BIT (42_logic_arith_compare R161 to R164). -/

namespace Sys2Proof.Machine

/-- The execute phase of a logical instruction: `A <- f A m; SetNZ(A)` (42 R161 to R163). -/
def logicBody (f : Byte → Byte → Byte) (m : Byte) (s : State) : State := (s.setA (f s.a m)).setNZ (f s.a m)

/-- The execute phase of BIT: only flags (42 R164). -/
def bitBody (m : Byte) (s : State) : State := s.setP (bitFlags s.a m s.p)

/-- `AND #$nn`, opcode 29 (42 R161). -/
def execAndImm (v : Byte) (s : State) : Answer :=
  runLoad (.imm v) 2 false (logicBody (fun a m => a &&& m)) s

/-- `AND $nn`, opcode 25 (42 R161). -/
def execAndZp (b : Byte) (s : State) : Answer :=
  runLoad (.zp b) 3 false (logicBody (fun a m => a &&& m)) s

/-- `AND $nn,X`, opcode 35 (42 R161). -/
def execAndZpx (b : Byte) (s : State) : Answer :=
  runLoad (.zpx b) 4 false (logicBody (fun a m => a &&& m)) s

/-- `AND $nnnn`, opcode 2D (42 R161). -/
def execAndAbs (w : Addr) (s : State) : Answer :=
  runLoad (.abs w) 4 false (logicBody (fun a m => a &&& m)) s

/-- `AND $nnnn,X`, opcode 3D (42 R161). -/
def execAndAbsx (w : Addr) (s : State) : Answer :=
  runLoad (.absx w) 4 true (logicBody (fun a m => a &&& m)) s

/-- `AND $nnnn,Y`, opcode 39 (42 R161). -/
def execAndAbsy (w : Addr) (s : State) : Answer :=
  runLoad (.absy w) 4 true (logicBody (fun a m => a &&& m)) s

/-- `AND ($nn,X)`, opcode 21 (42 R161). -/
def execAndIndx (b : Byte) (s : State) : Answer :=
  runLoad (.indx b) 6 false (logicBody (fun a m => a &&& m)) s

/-- `AND ($nn),Y`, opcode 31 (42 R161). -/
def execAndIndy (b : Byte) (s : State) : Answer :=
  runLoad (.indy b) 5 true (logicBody (fun a m => a &&& m)) s

/-- `ORA #$nn`, opcode 09 (42 R162). -/
def execOraImm (v : Byte) (s : State) : Answer :=
  runLoad (.imm v) 2 false (logicBody (fun a m => a ||| m)) s

/-- `ORA $nn`, opcode 05 (42 R162). -/
def execOraZp (b : Byte) (s : State) : Answer :=
  runLoad (.zp b) 3 false (logicBody (fun a m => a ||| m)) s

/-- `ORA $nn,X`, opcode 15 (42 R162). -/
def execOraZpx (b : Byte) (s : State) : Answer :=
  runLoad (.zpx b) 4 false (logicBody (fun a m => a ||| m)) s

/-- `ORA $nnnn`, opcode 0D (42 R162). -/
def execOraAbs (w : Addr) (s : State) : Answer :=
  runLoad (.abs w) 4 false (logicBody (fun a m => a ||| m)) s

/-- `ORA $nnnn,X`, opcode 1D (42 R162). -/
def execOraAbsx (w : Addr) (s : State) : Answer :=
  runLoad (.absx w) 4 true (logicBody (fun a m => a ||| m)) s

/-- `ORA $nnnn,Y`, opcode 19 (42 R162). -/
def execOraAbsy (w : Addr) (s : State) : Answer :=
  runLoad (.absy w) 4 true (logicBody (fun a m => a ||| m)) s

/-- `ORA ($nn,X)`, opcode 01 (42 R162). -/
def execOraIndx (b : Byte) (s : State) : Answer :=
  runLoad (.indx b) 6 false (logicBody (fun a m => a ||| m)) s

/-- `ORA ($nn),Y`, opcode 11 (42 R162). -/
def execOraIndy (b : Byte) (s : State) : Answer :=
  runLoad (.indy b) 5 true (logicBody (fun a m => a ||| m)) s

/-- `EOR #$nn`, opcode 49 (42 R163). -/
def execEorImm (v : Byte) (s : State) : Answer :=
  runLoad (.imm v) 2 false (logicBody (fun a m => a ^^^ m)) s

/-- `EOR $nn`, opcode 45 (42 R163). -/
def execEorZp (b : Byte) (s : State) : Answer :=
  runLoad (.zp b) 3 false (logicBody (fun a m => a ^^^ m)) s

/-- `EOR $nn,X`, opcode 55 (42 R163). -/
def execEorZpx (b : Byte) (s : State) : Answer :=
  runLoad (.zpx b) 4 false (logicBody (fun a m => a ^^^ m)) s

/-- `EOR $nnnn`, opcode 4D (42 R163). -/
def execEorAbs (w : Addr) (s : State) : Answer :=
  runLoad (.abs w) 4 false (logicBody (fun a m => a ^^^ m)) s

/-- `EOR $nnnn,X`, opcode 5D (42 R163). -/
def execEorAbsx (w : Addr) (s : State) : Answer :=
  runLoad (.absx w) 4 true (logicBody (fun a m => a ^^^ m)) s

/-- `EOR $nnnn,Y`, opcode 59 (42 R163). -/
def execEorAbsy (w : Addr) (s : State) : Answer :=
  runLoad (.absy w) 4 true (logicBody (fun a m => a ^^^ m)) s

/-- `EOR ($nn,X)`, opcode 41 (42 R163). -/
def execEorIndx (b : Byte) (s : State) : Answer :=
  runLoad (.indx b) 6 false (logicBody (fun a m => a ^^^ m)) s

/-- `EOR ($nn),Y`, opcode 51 (42 R163). -/
def execEorIndy (b : Byte) (s : State) : Answer :=
  runLoad (.indy b) 5 true (logicBody (fun a m => a ^^^ m)) s

/-- `BIT $nn`, opcode 24 (42 R164). -/
def execBitZp (b : Byte) (s : State) : Answer :=
  runLoad (.zp b) 3 false bitBody s

/-- `BIT $nnnn`, opcode 2C (42 R164). -/
def execBitAbs (w : Addr) (s : State) : Answer :=
  runLoad (.abs w) 4 false bitBody s

end Sys2Proof.Machine
end

