-- ==== Sys2Proof/Machine/Shift.lean ====
section
/-! DEFINITION. ASL, LSR, ROL, ROR on A or on memory (43_incdec_shift R180, R187 to R190). -/

namespace Sys2Proof.Machine

/-- `ASL A`, opcode 0A (43 R187). -/
def execAslAcc (s : State) : Answer :=
  runModify .acc 2 aslValue s

/-- `ASL $nn`, opcode 06 (43 R187). -/
def execAslZp (b : Byte) (s : State) : Answer :=
  runModify (.zp b) 5 aslValue s

/-- `ASL $nn,X`, opcode 16 (43 R187). -/
def execAslZpx (b : Byte) (s : State) : Answer :=
  runModify (.zpx b) 6 aslValue s

/-- `ASL $nnnn`, opcode 0E (43 R187). -/
def execAslAbs (w : Addr) (s : State) : Answer :=
  runModify (.abs w) 6 aslValue s

/-- `ASL $nnnn,X`, opcode 1E (43 R187). -/
def execAslAbsx (w : Addr) (s : State) : Answer :=
  runModify (.absx w) 7 aslValue s

/-- `LSR A`, opcode 4A (43 R188). -/
def execLsrAcc (s : State) : Answer :=
  runModify .acc 2 lsrValue s

/-- `LSR $nn`, opcode 46 (43 R188). -/
def execLsrZp (b : Byte) (s : State) : Answer :=
  runModify (.zp b) 5 lsrValue s

/-- `LSR $nn,X`, opcode 56 (43 R188). -/
def execLsrZpx (b : Byte) (s : State) : Answer :=
  runModify (.zpx b) 6 lsrValue s

/-- `LSR $nnnn`, opcode 4E (43 R188). -/
def execLsrAbs (w : Addr) (s : State) : Answer :=
  runModify (.abs w) 6 lsrValue s

/-- `LSR $nnnn,X`, opcode 5E (43 R188). -/
def execLsrAbsx (w : Addr) (s : State) : Answer :=
  runModify (.absx w) 7 lsrValue s

/-- `ROL A`, opcode 2A (43 R189). -/
def execRolAcc (s : State) : Answer :=
  runModify .acc 2 rolValue s

/-- `ROL $nn`, opcode 26 (43 R189). -/
def execRolZp (b : Byte) (s : State) : Answer :=
  runModify (.zp b) 5 rolValue s

/-- `ROL $nn,X`, opcode 36 (43 R189). -/
def execRolZpx (b : Byte) (s : State) : Answer :=
  runModify (.zpx b) 6 rolValue s

/-- `ROL $nnnn`, opcode 2E (43 R189). -/
def execRolAbs (w : Addr) (s : State) : Answer :=
  runModify (.abs w) 6 rolValue s

/-- `ROL $nnnn,X`, opcode 3E (43 R189). -/
def execRolAbsx (w : Addr) (s : State) : Answer :=
  runModify (.absx w) 7 rolValue s

/-- `ROR A`, opcode 6A (43 R190). -/
def execRorAcc (s : State) : Answer :=
  runModify .acc 2 rorValue s

/-- `ROR $nn`, opcode 66 (43 R190). -/
def execRorZp (b : Byte) (s : State) : Answer :=
  runModify (.zp b) 5 rorValue s

/-- `ROR $nn,X`, opcode 76 (43 R190). -/
def execRorZpx (b : Byte) (s : State) : Answer :=
  runModify (.zpx b) 6 rorValue s

/-- `ROR $nnnn`, opcode 6E (43 R190). -/
def execRorAbs (w : Addr) (s : State) : Answer :=
  runModify (.abs w) 6 rorValue s

/-- `ROR $nnnn,X`, opcode 7E (43 R190). -/
def execRorAbsx (w : Addr) (s : State) : Answer :=
  runModify (.absx w) 7 rorValue s

end Sys2Proof.Machine
end

