-- ==== Sys2Proof/Machine/Stack.lean ====
section
/-! DEFINITION. PHA, PHP, PLA, PLP (41_load_store_transfer R143 to R146). -/

namespace Sys2Proof.Machine

/-- The execute phase of PLA: `A <- Pop(); SetNZ(A)` (41 R145). -/
def pullA (s : State) : State :=
  let (v, s1) := pop s
  (s1.setA v).setNZ v

/-- The execute phase of PLP: `P <- Pop() | 0x20` (41 R146). -/
def pullP (s : State) : State :=
  let (v, s1) := pop s
  s1.setP (loadedStatus v)

/-- `PHA`, opcode 48 (41 R143). -/
def execPha (s : State) : Answer :=
  runImplied 3 (fun s1 => push s1.a s1) s

/-- `PHP`, opcode 08 (41 R144). -/
def execPhp (s : State) : Answer :=
  runImplied 3 (fun s1 => push (pushedWithBreak s1.p) s1) s

/-- `PLA`, opcode 68 (41 R145). -/
def execPla (s : State) : Answer :=
  runImplied 4 pullA s

/-- `PLP`, opcode 28 (41 R146). -/
def execPlp (s : State) : Answer :=
  runImplied 4 pullP s

end Sys2Proof.Machine
end

