-- ==== Sys2Proof/Machine/Store.lean ====
section
/-! DEFINITION. STA, STX, STY: the register is stored, no read of EA, no flag (41_load_store_transfer R134 to R136). -/

namespace Sys2Proof.Machine

/-- `STA $nn`, opcode 85 (41 R134). -/
def execStaZp (b : Byte) (s : State) : Answer :=
  runStore (.zp b) 3 State.a s

/-- `STA $nn,X`, opcode 95 (41 R134). -/
def execStaZpx (b : Byte) (s : State) : Answer :=
  runStore (.zpx b) 4 State.a s

/-- `STA $nnnn`, opcode 8D (41 R134). -/
def execStaAbs (w : Addr) (s : State) : Answer :=
  runStore (.abs w) 4 State.a s

/-- `STA $nnnn,X`, opcode 9D (41 R134). -/
def execStaAbsx (w : Addr) (s : State) : Answer :=
  runStore (.absx w) 5 State.a s

/-- `STA $nnnn,Y`, opcode 99 (41 R134). -/
def execStaAbsy (w : Addr) (s : State) : Answer :=
  runStore (.absy w) 5 State.a s

/-- `STA ($nn,X)`, opcode 81 (41 R134). -/
def execStaIndx (b : Byte) (s : State) : Answer :=
  runStore (.indx b) 6 State.a s

/-- `STA ($nn),Y`, opcode 91 (41 R134). -/
def execStaIndy (b : Byte) (s : State) : Answer :=
  runStore (.indy b) 6 State.a s

/-- `STX $nn`, opcode 86 (41 R135). -/
def execStxZp (b : Byte) (s : State) : Answer :=
  runStore (.zp b) 3 State.x s

/-- `STX $nn,Y`, opcode 96 (41 R135). -/
def execStxZpy (b : Byte) (s : State) : Answer :=
  runStore (.zpy b) 4 State.x s

/-- `STX $nnnn`, opcode 8E (41 R135). -/
def execStxAbs (w : Addr) (s : State) : Answer :=
  runStore (.abs w) 4 State.x s

/-- `STY $nn`, opcode 84 (41 R136). -/
def execStyZp (b : Byte) (s : State) : Answer :=
  runStore (.zp b) 3 State.y s

/-- `STY $nn,X`, opcode 94 (41 R136). -/
def execStyZpx (b : Byte) (s : State) : Answer :=
  runStore (.zpx b) 4 State.y s

/-- `STY $nnnn`, opcode 8C (41 R136). -/
def execStyAbs (w : Addr) (s : State) : Answer :=
  runStore (.abs w) 4 State.y s

end Sys2Proof.Machine
end

