-- ==== Sys2Proof/Machine/Transfer.lean ====
section
/-! DEFINITION. TAX, TAY, TSX, TXA, TYA set N and Z; TXS sets no flag (41_load_store_transfer R137 to R142). -/

namespace Sys2Proof.Machine

/-- The execute phase of a transfer that sets N and Z: `set v; SetNZ(v)` (41 R137 to R140, R142). -/
def transferBody (set : State → Byte → State) (v : State → Byte) (s : State) : State := (set s (v s)).setNZ (v s)

/-- `TAX`, opcode AA (41 R137). -/
def execTax (s : State) : Answer :=
  runImplied 2 (transferBody State.setX State.a) s

/-- `TAY`, opcode A8 (41 R138). -/
def execTay (s : State) : Answer :=
  runImplied 2 (transferBody State.setY State.a) s

/-- `TSX`, opcode BA (41 R139). -/
def execTsx (s : State) : Answer :=
  runImplied 2 (transferBody State.setX State.sp) s

/-- `TXA`, opcode 8A (41 R140). -/
def execTxa (s : State) : Answer :=
  runImplied 2 (transferBody State.setA State.x) s

/-- `TXS`, opcode 9A (41 R141). -/
def execTxs (s : State) : Answer :=
  runImplied 2 (fun s1 => s1.setSp s1.x) s

/-- `TYA`, opcode 98 (41 R142). -/
def execTya (s : State) : Answer :=
  runImplied 2 (transferBody State.setA State.y) s

end Sys2Proof.Machine
end

