-- ==== Sys2Proof/Machine/Cycle.lean ====
section
/-! DEFINITION. One call of `step()` (30_encoding R101): opcode and operand fetch through the bus, the instruction, the
step log, the watchpoint pause and the breakpoint pause; and placing an instruction where the next step fetches it. -/

namespace Sys2Proof.Machine

/-! ## Fetch -/

/-- What a fetch finds: an unmapped opcode byte, or an instruction with the bytes it was read from. -/
inductive Fetched where
  | unmapped (op : Byte)
  | instr (i : Instr) (entry : LogEntry)
  deriving DecidableEq, Repr

/-- The operand byte at `pc0 + k`, read only when the instruction is longer than `k` bytes (30_encoding R101). -/
def fetchOperand (pc0 : Addr) (k length : Nat) (s : State) : Option Byte × State :=
  if k < length then
    let (b, s1) := busRead (pc0 + BitVec.ofNat 16 k) s
    (some b, s1)
  else (none, s)

/-- The opcode fetch at PC, the table look-up, and the operand fetch at increasing addresses (30_encoding R101,
20_memory R59). PC is not moved. -/
def fetch (s : State) : Fetched × State :=
  let (op, s1) := busRead s.pc s
  match tableRow op with
  | none => (.unmapped op, s1)
  | some row =>
    let (b1, s2) := fetchOperand s.pc 1 row.mode.length s1
    let (b2, s3) := fetchOperand s.pc 2 row.mode.length s2
    match decodeOp op (b1.getD 0) (b2.getD 0) with
    | some i => (.instr i { pc0 := s.pc, op := op, b1 := b1, b2 := b2 }, s3)
    | none => (.unmapped op, s3)

/-! ## The end of a step -/

/-- The step log with one more entry, the oldest dropped when it holds `STEP_LOG_CAPACITY` (60_exceptions R316).
DESIGN CHOICE, log entry 14, safe. -/
def State.appendLog (s : State) (e : LogEntry) : State :=
  let l := s.stepLog ++ [e]
  { s with stepLog := l.drop (l.length - s.params.stepLogCapacity) }

/-- The watchpoint pause: raised when the execute phase hit one, and the note is cleared (60_exceptions R315). -/
def State.watchPause (s : State) : State :=
  match s.watchHit with
  | none => s
  | some (a, k) => { s.pause (.watchpoint a k) with watchHit := none }

/-- The breakpoint pause on the PC the instruction left (60_exceptions R314). -/
def State.breakPause (s : State) : State :=
  if s.pc.toNat ∈ s.breakpoints then s.pause (.breakpoint s.pc) else s

/-- What follows the execute phase of an instruction: log, watchpoint, breakpoint (30_encoding R101). -/
def State.finish (s : State) (e : LogEntry) : State := (s.appendLog e).watchPause.breakPause

/-- The unmapped-opcode step: pause, 0 cycles, PC and every register unchanged (60_exceptions R301).
DEDUCED, log entry 10, safe. -/
def State.unmappedPause (s : State) (op : Byte) : State :=
  { s.pause (.unmappedOpcode op s.pc) with result := .cycles 0 }

/-- `step()` of a CPU that is not paused (30_encoding R101). -/
def cpuStep (s : State) : Answer :=
  match fetch s with
  | (.unmapped op, s1) => .next (s1.unmappedPause op)
  | (.instr i e, s1) =>
    match exec i s1 with
    | .next s2 => .next (s2.finish e)
    | .fault f => .fault f
    | .refused r => .refused r

/-! ## Placing an instruction -/

/-- The memory with `b` in a cell; what a loader does, no instruction writes PRG ROM. -/
def State.placeCell (s : State) (c : Cell) (b : Byte) : State :=
  match c with
  | .ram off => { s with ram := s.ram.write off b }
  | .cartRam off => { s with cartRam := s.cartRam.write off b }
  | .prg off => { s with prgRom := s.prgRom.write off b }

/-- Byte `b` placed in the memory cell that a fetch at `a` reads; nothing where a fetch at `a` reads no memory. -/
def State.placeAt (s : State) (a : Addr) (b : Byte) : State :=
  match s.readCell a with
  | some c => s.placeCell c b
  | none => s

/-- Whether a fetch at `a` reads a memory cell with no side effect. -/
def State.fetchable (s : State) (a : Addr) : Bool := (s.readCell a).isSome

/-- The machine about to call `step()` on memory: no move of the host before it, not paused, and PC moved into RAM
where the three bytes at PC are not all memory. -/
def State.readyToFetch (s : State) : State :=
  let s := { s with script := [], paused := false }
  if s.fetchable s.pc && s.fetchable (s.pc + 1) && s.fetchable (s.pc + 2) then s else { s with pc := 0x0200#16 }

/-- The first three bytes of an instruction placed at PC, ready to be fetched by the next step. -/
def State.placeInstr (s : State) (b0 b1 b2 : Byte) : State :=
  let s := s.readyToFetch
  ((s.placeAt s.pc b0).placeAt (s.pc + 1) b1).placeAt (s.pc + 2) b2

end Sys2Proof.Machine
end

