-- ==== Sys2Proof/Machine/HostMoves.lean ====
section
/-! DEFINITION. The host's moves (00_scope R12): each runs at an instruction boundary. The moves stand in State as a
script; when it is empty the host's next move is `step()`. DESIGN CHOICE, log entry 8, safe. -/

namespace Sys2Proof.Machine

/-! ## Construction -/

/-- The machine at power-on with a cartridge plugged in: the mapper at its board's `init`, not paused, debug state empty,
pads 0; the power-on values of registers, memories and the rest of the APU are arguments (10_state R45,
70_reset_and_hazards R333, R334). `system_reset()` runs before the first `step()`. -/
def State.construct (board : Board) (params : Params) (prgRom chr ram cartRam : Memory) (a x y sp p : Byte)
    (pc : Addr) (u : Apu) : State :=
  { State.reset with
    a := a
    x := x
    y := y
    sp := sp
    p := p
    pc := pc
    ram := ram
    cartRam := cartRam
    prgRom := prgRom
    chr := chr
    board := board
    mapper := mapperInit board
    apu := { u with padStatus0 := 0, padStatus1 := 0, padShift0 := 0, padShift1 := 0 }
    params := params }

/-! ## Save and load (70_reset_and_hazards R336 to R339) -/

/-- `cpu.save()`: the record of the six registers (70_reset_and_hazards R336). -/
def cpuSnapshot (s : State) : CpuSnapshot :=
  [(.a, s.a.toNat), (.x, s.x.toNat), (.y, s.y.toNat), (.s, s.sp.toNat), (.p, s.p.toNat), (.pc, s.pc.toNat)]

/-- The first value a snapshot gives a field. -/
def snapField (l : CpuSnapshot) (f : SnapField) : Option Int :=
  match l with
  | [] => none
  | (g, v) :: rest => if f = g then some v else snapField rest f

/-- The value of a field when it is there and an integer within `w` bits (70_reset_and_hazards R337). -/
def snapBits (w : Nat) (l : CpuSnapshot) (f : SnapField) : Option (BitVec w) :=
  match snapField l f with
  | some v => if 0 ≤ v ∧ v < 2 ^ w then some (BitVec.ofInt w v) else none
  | none => none

/-- The registers of a well-formed snapshot: exactly the six fields, each within its width; else `none`
(70_reset_and_hazards R337). -/
def snapRegisters (l : CpuSnapshot) : Option (Byte × Byte × Byte × Byte × Byte × Addr) :=
  if l.length = 6 then
    match snapBits 8 l .a, snapBits 8 l .x, snapBits 8 l .y, snapBits 8 l .s, snapBits 8 l .p, snapBits 16 l .pc with
    | some a, some x, some y, some sp, some p, some pc => some (a, x, y, sp, p, pc)
    | _, _, _, _, _, _ => none
  else none

/-- `cpu.load(s)`: the six registers, or the refusal `CorruptState` with nothing changed (70_reset_and_hazards R337).
DEDUCED, log entry 18, safe. -/
def cpuLoad (l : CpuSnapshot) (s : State) : State :=
  match snapRegisters l with
  | some (a, x, y, sp, p, pc) => { s with a := a, x := x, y := y, sp := sp, p := p, pc := pc, result := .nothing }
  | none => { s with result := .corruptState }

/-- `apu.load(m)`: the mirror, and draws for the rest of the APU but the pads' masks; or the refusal `CorruptState`
with nothing changed (70_reset_and_hazards R339). -/
def apuLoad (m : List Byte) (s : State) : State :=
  if h : m.length = 32 then
    { s with
      apu := s.apu.loaded ⟨m.toArray, by simpa using h⟩ s.draws
      draws := s.draws + apuLoadDraws
      result := .nothing }
  else { s with result := .corruptState }

/-! ## Debug moves (60_exceptions R313) -/

/-- `bp_enable(a)` and `bp_disable(a)`. -/
def setBreakpoint (a : Addr) (on : Bool) (s : State) : State :=
  { s with breakpoints := if on then AddrSet.insert a.toNat s.breakpoints else AddrSet.erase a.toNat s.breakpoints }

/-- `bp_clear_all()`. -/
def clearBreakpoints (s : State) : State := { s with breakpoints := [], bpNmi := false }

/-- `wp_enable(a, kind)` and `wp_disable(a, kind)`. -/
def setWatchpoint (a : Addr) (k : Access) (on : Bool) (s : State) : State :=
  let change := fun l => if on then AddrSet.insert a.toNat l else AddrSet.erase a.toNat l
  match k with
  | .read => { s with readWatch := change s.readWatch }
  | .write => { s with writeWatch := change s.writeWatch }

/-- The most recent `min(n, size)` entries of the step log (60_exceptions R313). -/
def recentLog (n : Nat) (s : State) : List LogEntry := s.stepLog.drop (s.stepLog.length - n)

/-! ## Delivery and boundaries (60_exceptions R306, R308) -/

/-- The delivery policy at one boundary: LEVEL calls `requestIrq()` while a source is asserted, EDGE_ONCE once after a
trigger, which it forgets; under any other policy the script's own calls are the policy (60_exceptions R306). -/
def deliverIrq (s : State) : State :=
  match s.params.irqDelivery with
  | .level => if s.irqAsserted then requestIrq s else s
  | .edgeOnce => if s.irqTrigger then requestIrq { s with irqTrigger := false } else s
  | .scripted => s

/-- The moves of one boundary in their order: `onHblank` if due, `nmi` if due, the delivery policy, then `step` unless
paused (60_exceptions R308). -/
def boundaryMoves (hblank : Option Nat) (nmi : Bool) : List HostMove :=
  (hblank.map HostMove.onHblank).toList ++ (if nmi then [HostMove.nmi] else []) ++
    [HostMove.deliverIrq, HostMove.stepUnlessPaused]

/-! ## The moves -/

/-- A move that returns nothing. -/
def State.returns (s : State) (r : HostResult) : State := { s with result := r }

/-- One move of the host (00_scope R12). `step()` is not called while `paused` is true (60_exceptions R300): the machine
stops there. DESIGN CHOICE, log entry 9, safe. -/
def hostMove (m : HostMove) (s : State) : Answer :=
  match m with
  | .step => if s.paused then .fault .stepWhilePaused else cpuStep s
  | .nmi => .next (nmiEntry s)
  | .requestIrq => .next (requestIrq s)
  | .onHblank n => .next ((onHblank n s).returns .nothing)
  | .cpuReset => .next ((cpuReset s).returns .nothing)
  | .apuReset => .next ((apuReset s).returns .nothing)
  | .systemReset => .next ((systemReset s).returns .nothing)
  | .setStatus i mask => .next (({ s with apu := s.apu.setStatus i mask } : State).returns .nothing)
  | .bpEnable a => .next ((setBreakpoint a true s).returns .nothing)
  | .bpDisable a => .next ((setBreakpoint a false s).returns .nothing)
  | .bpEnableNmi => .next (({ s with bpNmi := true } : State).returns .nothing)
  | .bpDisableNmi => .next (({ s with bpNmi := false } : State).returns .nothing)
  | .bpClearAll => .next ((clearBreakpoints s).returns .nothing)
  | .wpEnable a k => .next ((setWatchpoint a k true s).returns .nothing)
  | .wpDisable a k => .next ((setWatchpoint a k false s).returns .nothing)
  | .stepLog n => .next (s.returns (.log (recentLog n s)))
  | .resume => .next (({ s with paused := false } : State).returns .nothing)
  | .cpuSave => .next (s.returns (.cpuSnapshot (cpuSnapshot s)))
  | .cpuLoad l => .next (cpuLoad l s)
  | .apuSave => .next (s.returns (.apuSnapshot s.apu.regs.toList))
  | .apuLoad l => .next (apuLoad l s)
  | .deliverIrq => .next (deliverIrq (s.returns .nothing))
  | .stepUnlessPaused => if s.paused then .next (s.returns .nothing) else cpuStep s
  | .boundary hb nmi => .next (({ s with script := boundaryMoves hb nmi ++ s.script } : State).returns .nothing)

/-- The next move of the host: the head of the script, and `step()` when the script is empty. -/
def nextMove (s : State) : Answer :=
  match s.script with
  | [] => hostMove .step s
  | m :: rest => hostMove m { s with script := rest }

end Sys2Proof.Machine
end

