-- ==== Sys2Proof/Machine/Audio.lean ====
section
/-! DEFINITION. The derived values each channel exposes to the audio back end (50_apu R273, R276, R279, R282): volume from
0 to 1, frequency, duty ratio, as exact rationals. No CPU-visible state depends on them. DESIGN CHOICE, log entry 20, unsafe. -/

namespace Sys2Proof.Machine

/-- The volume of a channel with an envelope (50_apu R273, R279). -/
def envelopeVolume (stopped enabled : Bool) (g : ChanRegs) (e : Envelope) : Rat :=
  if stopped || !enabled then 0
  else if g.r0.getLsbD 4 then (g.nibble : Rat) / 15
  else (e.counter : Rat) / 15

/-- Clock over divisor times period plus one (50_apu R273). -/
def periodFrequency (clock divisor period : Nat) : Rat := (clock : Rat) / ((divisor * (period + 1) : Nat) : Rat)

/-- Volume of a pulse channel (50_apu R273). -/
def Pulse.volume (c : Pulse) : Rat := envelopeVolume c.stopped c.enabled c.regs c.env

/-- Frequency of a pulse channel (50_apu R273). -/
def Pulse.frequency (p : Params) (c : Pulse) : Rat := periodFrequency p.cpuClockHz p.freqDivisorPulse c.regs.period

/-- Duty ratio of a pulse channel: `DUTY_TABLE[regs[0][7:6]]` (50_apu R273). -/
def Pulse.dutyRatio (p : Params) (c : Pulse) : Rat :=
  let i : BitVec 2 := (c.regs.r0 >>> 6).setWidth 2
  let d := p.dutyTable[i.toNat]'i.isLt
  (d.num : Rat) / (d.den : Rat)

/-- Volume of the triangle channel (50_apu R276). -/
def Triangle.volume (c : Triangle) : Rat := if c.stopped || !c.enabled then 0 else 1

/-- Frequency of the triangle channel (50_apu R276). -/
def Triangle.frequency (p : Params) (c : Triangle) : Rat :=
  periodFrequency p.cpuClockHz p.freqDivisorTriangle c.regs.period

/-- Volume of the noise channel (50_apu R279). -/
def Noise.volume (c : Noise) : Rat := envelopeVolume c.stopped c.enabled c.regs c.env

/-- Frequency of the noise channel: the period is `NOISE_PERIOD_TABLE[regs[2][3:0]]`, the divisor is free
(50_apu R279; log entry 20). -/
def Noise.frequency (p : Params) (c : Noise) : Rat :=
  let i : BitVec 4 := c.regs.r2.setWidth 4
  periodFrequency p.cpuClockHz Config.freqDivisorNoise (p.noisePeriodTable[i.toNat]'i.isLt)

/-- Volume of the DMC (50_apu R282). -/
def Dmc.volume (c : Dmc) : Rat := if c.isPlaying && c.enabled then 1 else 0

/-- Frequency of the DMC: a free function of its rate index, bits 3:0 of the first register (50_apu R280, R282; log
entry 20). -/
def Dmc.frequency (c : Dmc) : Rat := Config.dmcFrequency (c.regs.r0.toNat % 16)

/-- The fixed duty ratio, 0.5 (50_apu R276, R279, R282). -/
def fixedDutyRatio : Rat := 1 / 2

/-- Duty ratio of the triangle channel (50_apu R276). -/
def Triangle.dutyRatio (_ : Triangle) : Rat := fixedDutyRatio

/-- Duty ratio of the noise channel (50_apu R279). -/
def Noise.dutyRatio (_ : Noise) : Rat := fixedDutyRatio

/-- Duty ratio of the DMC (50_apu R282). -/
def Dmc.dutyRatio (_ : Dmc) : Rat := fixedDutyRatio

end Sys2Proof.Machine
end

