-- ==== Sys2Proof/Safety.lean ====
section
/-! DEFINITION. The terms claims are stated in: the invariant of the machine's states, what an instruction leaves alone,
the operand an instruction sees, and when a run is finished or faulted (60_exceptions R323). -/

namespace Sys2Proof.Machine

/-! ## The invariant -/

/-- Divider and counter lie in 0..15 (10_state R34). -/
def Envelope.bounded (e : Envelope) : Bool := decide (e.divider ≤ 15) && decide (e.counter ≤ 15)

/-- The ranges of a pulse channel (10_state R34). -/
def Pulse.bounded (c : Pulse) : Bool :=
  decide (c.length ≤ 255) && c.env.bounded && decide (c.sweepCounter ≤ 8)

/-- The ranges of the triangle channel (10_state R34). -/
def Triangle.bounded (c : Triangle) : Bool := decide (c.length ≤ 127)

/-- The ranges of the noise channel (10_state R34). -/
def Noise.bounded (c : Noise) : Bool := decide (c.length ≤ 255) && c.env.bounded

/-- The range of the DMC (10_state R34). -/
def Dmc.bounded (c : Dmc) : Bool := decide (c.dmaLength ≤ 128)

/-- Left and Right are never both set, Up and Down are never both set (10_state R35). -/
def padLegal (mask : Byte) : Bool :=
  !(mask.getLsbD 6 && mask.getLsbD 7) && !(mask.getLsbD 4 && mask.getLsbD 5)

/-- The ranges and the pad invariant of the APU (10_state R34, R35). -/
def Apu.bounded (u : Apu) : Bool :=
  u.p1.bounded && u.p2.bounded && u.tri.bounded && u.noi.bounded && u.dmc.bounded &&
    padLegal u.padStatus0 && padLegal u.padStatus1

/-- The memories are in canonical form, and RAM lists only its 2048 bytes (20_memory R53). -/
def State.memoriesOk (s : State) : Bool :=
  s.ram.wf && s.ram.below 0x0800 && s.cartRam.wf && s.prgRom.wf

/-- The debug sets are in their one form, the step log is within its capacity, and no watchpoint note is left over
(10_state R28, 60_exceptions R315, R316). -/
def State.debugOk (s : State) : Bool :=
  AddrSet.wf s.breakpoints && AddrSet.wf s.readWatch && AddrSet.wf s.writeWatch &&
    decide (s.stepLog.length ≤ s.params.stepLogCapacity) && decide (s.watchHit = none)

/-- The invariant of the states between two moves. -/
def State.Inv (s : State) : Bool := s.memoriesOk && s.chr.wf && s.debugOk && s.apu.bounded

/-! ## What an instruction sees -/

/-- The effective address of an instruction (30_encoding R92 to R100). -/
def effAddr (i : Instr) (s : State) : Option Addr := (addressed i.operand s).1.addr

/-- The state after the PC advance and the address phase. -/
def addressedState (i : Instr) (s : State) : State := (addressed i.operand s).2

/-- The operand value of an instruction (30_encoding R101, `LoadOperand()`). -/
def operandValue (i : Instr) (s : State) : Byte :=
  (loadOperand i.operand (effAddr i s) (addressedState i s)).1

/-- The state after the operand has been read. -/
def operandState (i : Instr) (s : State) : State :=
  (loadOperand i.operand (effAddr i s) (addressedState i s)).2

/-- The address of the byte after an instruction (10_state R25). -/
def nextPc (i : Instr) (s : State) : Addr := s.pc + BitVec.ofNat 16 i.operand.length

/-- The base cycles of the table and the page-cross penalty of an instruction (30_encoding R102 to R104). -/
def tableCycles (i : Instr) (s : State) : Nat :=
  match tableRow i.opcode with
  | some row => row.base + if row.penalty && (addressed i.operand s).1.crossed then 1 else 0
  | none => 0

/-- The memory cell a store instruction stores to: none where its effective address is no memory that stores. -/
def storeCell (i : Instr) (s : State) : Option Cell := (effAddr i s).bind s.writeCell

/-- The memory cell a read-modify-write instruction stores to, after its one read: none for the accumulator form, and
none where its effective address is no memory that stores. -/
def modifyCell (i : Instr) (s : State) : Option Cell := (effAddr i s).bind (operandState i s).writeCell

/-- The memory cell of the stack slot S points to (10_state R21). -/
def stackCell (sp : Byte) : Cell := .ram (0x0100 + sp.toNat)

/-- The branch displacement's target (30_encoding R100, 44_control_flow R200). -/
def branchTarget (d : Int) (s : State) : Addr := s.pc + 2 + BitVec.ofInt 16 d

/-- The 105 unmapped opcode bytes (30_encoding R106). -/
def unmappedBytes : List Byte :=
  [0x02#8, 0x03#8, 0x04#8, 0x07#8, 0x0B#8, 0x0C#8, 0x0F#8, 0x12#8, 0x13#8, 0x14#8, 0x17#8, 0x1A#8,
    0x1B#8, 0x1C#8, 0x1F#8, 0x22#8, 0x23#8, 0x27#8, 0x2B#8, 0x2F#8, 0x32#8, 0x33#8, 0x34#8, 0x37#8,
    0x3A#8, 0x3B#8, 0x3C#8, 0x3F#8] ++
  [0x42#8, 0x43#8, 0x44#8, 0x47#8, 0x4B#8, 0x4F#8, 0x52#8, 0x53#8, 0x54#8, 0x57#8, 0x5A#8, 0x5B#8,
    0x5C#8, 0x5F#8, 0x62#8, 0x63#8, 0x64#8, 0x67#8, 0x6B#8, 0x6F#8, 0x72#8, 0x73#8, 0x74#8, 0x77#8,
    0x7A#8, 0x7B#8, 0x7C#8, 0x7F#8] ++
  [0x80#8, 0x82#8, 0x83#8, 0x87#8, 0x89#8, 0x8B#8, 0x8F#8, 0x92#8, 0x93#8, 0x97#8, 0x9B#8, 0x9C#8,
    0x9E#8, 0x9F#8, 0xA3#8, 0xA7#8, 0xAB#8, 0xAF#8, 0xB2#8, 0xB3#8, 0xB7#8, 0xBB#8, 0xBF#8] ++
  [0xC2#8, 0xC3#8, 0xC7#8, 0xCB#8, 0xCF#8, 0xD2#8, 0xD3#8, 0xD4#8, 0xD7#8, 0xDA#8, 0xDB#8, 0xDC#8,
    0xDF#8, 0xE2#8, 0xE3#8, 0xE7#8, 0xEB#8, 0xEF#8, 0xF2#8, 0xF3#8, 0xF4#8, 0xF7#8, 0xFA#8, 0xFB#8,
    0xFC#8, 0xFF#8]

/-- The step-log entry of instruction `i` executed at `pc0` (60_exceptions R316). -/
def logEntryOf (i : Instr) (pc0 : Addr) : LogEntry :=
  { pc0 := pc0, op := i.opcode, b1 := i.operand.bytes[0]?, b2 := i.operand.bytes[1]? }

/-! ## What an instruction leaves alone -/

/-- N and Z follow `v`, every other bit of P is as before (10_state R24). -/
def FlagsNZ (old new v : Byte) : Prop :=
  getFlag new .n = v.getLsbD 7 ∧ (getFlag new .z = true ↔ v = 0) ∧
    ∀ f : Flag, f ≠ .n → f ≠ .z → getFlag new f = getFlag old f

/-- No instruction changes these: the debug state, the launch data, PRG ROM, and the host's script. -/
def KeepsHost (s t : State) : Prop :=
  t.paused = s.paused ∧ t.pauseReason = s.pauseReason ∧ t.breakpoints = s.breakpoints ∧ t.bpNmi = s.bpNmi ∧
    t.readWatch = s.readWatch ∧ t.writeWatch = s.writeWatch ∧ t.stepLog = s.stepLog ∧ t.prgRom = s.prgRom ∧ t.chr = s.chr ∧
    t.board = s.board ∧ t.params = s.params ∧ t.script = s.script

/-- A move that may pause changes none of these: the debug sets, the step log, the launch data, the host's script. -/
def KeepsSets (s t : State) : Prop :=
  t.breakpoints = s.breakpoints ∧ t.bpNmi = s.bpNmi ∧ t.readWatch = s.readWatch ∧ t.writeWatch = s.writeWatch ∧
    t.stepLog = s.stepLog ∧ t.prgRom = s.prgRom ∧ t.chr = s.chr ∧ t.board = s.board ∧ t.params = s.params ∧
    t.script = s.script

/-- Every byte of memory but the one of `o` reads as before. -/
def KeepsMemoryBut (o : Option Cell) (s t : State) : Prop := ∀ c : Cell, o ≠ some c → t.cellByte c = s.cellByte c

/-- Every byte of memory reads as before. -/
def KeepsMemory (s t : State) : Prop := ∀ c : Cell, t.cellByte c = s.cellByte c

/-- The APU, the mapper, the events, the trigger and the draws are as before. -/
def KeepsDevices (s t : State) : Prop :=
  t.apu = s.apu ∧ t.mapper = s.mapper ∧ t.events = s.events ∧ t.irqTrigger = s.irqTrigger ∧ t.draws = s.draws

/-- The step returns `n` cycles and the ghost counter adds them. -/
def Charges (s t : State) (n : Nat) : Prop := t.result = .cycles n ∧ t.cycles = s.cycles + n

/-- What an instruction leaves that reads its operand and stores nothing: S and the debug state as before, no byte of
memory changed, the devices as the one read of the operand leaves them, PC past the instruction, the table's cycles. -/
def ReadsOnly (i : Instr) (s t : State) : Prop :=
  t.sp = s.sp ∧ t.pc = nextPc i s ∧ KeepsHost s t ∧ KeepsMemory s t ∧ KeepsDevices (operandState i s) t ∧
    t.watchHit = (operandState i s).watchHit ∧ Charges s t (tableCycles i s)

/-- What an instruction leaves that makes no access after its fetch: no byte of memory changed, devices and debug state
as before, PC past the instruction, the table's cycles. -/
def RegistersOnly (i : Instr) (s t : State) : Prop :=
  t.pc = nextPc i s ∧ KeepsHost s t ∧ KeepsMemory s t ∧ KeepsDevices s t ∧ t.watchHit = s.watchHit ∧
    Charges s t (tableCycles i s)

/-- What a store of `v` at the effective address leaves: the registers and the debug state as before, the stored cell
holding `v`, every other byte of memory as before, the devices as one bus write of `v` leaves them (as before where
memory stores it), PC past the instruction, the table's cycles. -/
def StoresOnly (i : Instr) (v : Byte) (s t : State) : Prop :=
  t.a = s.a ∧ t.x = s.x ∧ t.y = s.y ∧ t.sp = s.sp ∧ t.p = s.p ∧ t.pc = nextPc i s ∧ KeepsHost s t ∧
    (∀ c, storeCell i s = some c → s.memoriesOk = true → t.cellByte c = v) ∧ KeepsMemoryBut (storeCell i s) s t ∧
    (∃ a, effAddr i s = some a ∧ KeepsDevices (busWrite a v s) t ∧
      t.watchHit = (s.noteAccess a .write).watchHit) ∧
    (storeCell i s ≠ none → KeepsDevices s t) ∧ Charges s t (tableCycles i s)

/-- What a read-modify-write that gives the operand the new value `v` leaves. Accumulator form: A holds `v`, no access.
Memory forms: the stored cell holds `v`, every other byte of memory is as before, the devices are as the one read and
then the one write leave them. X, Y, S and the debug state as before, PC past the instruction, the table's cycles. -/
def ModifiesOnly (i : Instr) (v : Byte) (s t : State) : Prop :=
  t.a = (if i.operand = .acc then v else s.a) ∧ t.x = s.x ∧ t.y = s.y ∧ t.sp = s.sp ∧ t.pc = nextPc i s ∧
    KeepsHost s t ∧ (∀ c, modifyCell i s = some c → s.memoriesOk = true → t.cellByte c = v) ∧
    KeepsMemoryBut (modifyCell i s) s t ∧
    (i.operand = .acc → KeepsDevices s t ∧ t.watchHit = s.watchHit) ∧
    (i.operand ≠ .acc → ∃ a, effAddr i s = some a ∧ KeepsDevices (busWrite a v (operandState i s)) t ∧
      t.watchHit = ((operandState i s).noteAccess a .write).watchHit) ∧
    Charges s t (tableCycles i s)

/-- What the adder gives for `a`, `m` and the carry of `old`: the sum mod 256 in `r`, C, V, N and Z in `new`, every other
bit of P as in `old` (42_logic_arith_compare R160). -/
def AdderGives (a m old new r : Byte) : Prop :=
  r = BitVec.ofNat 8 (a.toNat + m.toNat + (getFlag old .c).toNat) ∧
    (getFlag new .c = true ↔ 0xFF < a.toNat + m.toNat + (getFlag old .c).toNat) ∧
    (getFlag new .v = true ↔ a.getLsbD 7 = m.getLsbD 7 ∧ r.getLsbD 7 ≠ a.getLsbD 7) ∧
    getFlag new .n = r.getLsbD 7 ∧ (getFlag new .z = true ↔ r = 0) ∧
    ∀ f : Flag, f ≠ .n → f ≠ .z → f ≠ .c → f ≠ .v → getFlag new f = getFlag old f

/-- N and Z follow `v`, C is `c`, every other bit of P is as before. -/
def FlagsNZC (old new v : Byte) (c : Bool) : Prop :=
  getFlag new .n = v.getLsbD 7 ∧ (getFlag new .z = true ↔ v = 0) ∧ getFlag new .c = c ∧
    ∀ f : Flag, f ≠ .n → f ≠ .z → f ≠ .c → getFlag new f = getFlag old f

/-- What a branch leaves: only PC and the cycles (44_control_flow R200). -/
def BranchLeaves (d : Int) (taken : Bool) (s t : State) : Prop :=
  t.a = s.a ∧ t.x = s.x ∧ t.y = s.y ∧ t.sp = s.sp ∧ t.p = s.p ∧
    t.pc = (if taken then branchTarget d s else s.pc + 2) ∧ KeepsHost s t ∧ KeepsMemory s t ∧ KeepsDevices s t ∧
    t.watchHit = s.watchHit ∧
    Charges s t (if taken then (if hiByte (branchTarget d s) ≠ hiByte (s.pc + 2) then 4 else 3) else 2)

/-- What an entry through `vec` with return address `ret` and pushed byte `status` leaves: three stack bytes, S three
less, I set and no other bit of P, PC from the vector, A, X and Y as before (60_exceptions R305). -/
def EntersThrough (vec ret : Addr) (status : Byte) (s t : State) : Prop :=
  t.a = s.a ∧ t.x = s.x ∧ t.y = s.y ∧ t.sp = s.sp - 3 ∧
    (∀ f : Flag, getFlag t.p f = if f = .i then true else getFlag s.p f) ∧
    t.pc = (busRead16 vec (push status (pushWord ret s))).1 ∧
    KeepsDevices (busRead16 vec (push status (pushWord ret s))).2 t ∧
    (s.ram.wf = true → t.cellByte (stackCell s.sp) = hiByte ret ∧ t.cellByte (stackCell (s.sp - 1)) = loByte ret ∧
      t.cellByte (stackCell (s.sp - 2)) = status) ∧
    (∀ c, c ≠ stackCell s.sp → c ≠ stackCell (s.sp - 1) → c ≠ stackCell (s.sp - 2) → t.cellByte c = s.cellByte c)

/-- A state without its debug state, for comparing two runs (60_exceptions R318). -/
def State.withoutDebug (s : State) : State :=
  { s with
    paused := false
    pauseReason := none
    breakpoints := []
    bpNmi := false
    readWatch := []
    writeWatch := []
    stepLog := []
    watchHit := none }

/-- The bytes `l` stand in memory at `a` and following, where fetching them has no side effect. -/
def State.holdsBytes (s : State) (a : Addr) (l : List Byte) : Prop :=
  match l with
  | [] => True
  | b :: rest => (∃ c, s.readCell a = some c ∧ s.cellByte c = b) ∧ State.holdsBytes s (a + 1) rest

/-! ## Snapshots and pads -/

/-- A snapshot gives field `f` an integer of at most `w` bits. -/
def snapshotGives (l : CpuSnapshot) (f : SnapField) (w : Nat) : Prop := ∃ v : Int, (f, v) ∈ l ∧ 0 ≤ v ∧ v < 2 ^ w

/-- A well-formed CPU snapshot: exactly the six fields, each an integer within its width (70_reset_and_hazards R337). -/
def snapshotOk (l : CpuSnapshot) : Prop :=
  l.length = 6 ∧ snapshotGives l .a 8 ∧ snapshotGives l .x 8 ∧ snapshotGives l .y 8 ∧ snapshotGives l .s 8 ∧
    snapshotGives l .p 8 ∧ snapshotGives l .pc 16

/-- The state after `n` bus reads of `a`, one after the other. -/
def afterReads (a : Addr) (n : Nat) (s : State) : State :=
  match n with
  | 0 => s
  | k + 1 => (busRead a (afterReads a k s)).2

/-! ## The end of a run (60_exceptions R323) -/

/-- A run is finished: paused at the breakpoint the launch names as its end. -/
def State.finishedAt (s : State) (e : Addr) : Bool := s.paused && decide (s.pauseReason = some (.breakpoint e))

/-- A run is faulted: paused on an unmapped opcode or an illegal mode (60_exceptions R301, R302). -/
def State.faulted (s : State) : Bool :=
  s.paused &&
    match s.pauseReason with
    | some (.unmappedOpcode _ _) => true
    | some .illegalMode => true
    | some (.breakpoint _) => false
    | some .nmiBreakpoint => false
    | some (.watchpoint _ _) => false
    | none => false

/-- A run, as the states its host moves pass through, is finished: its last state is finished and none before it is
faulted (60_exceptions R323). -/
def runFinished (e : Addr) : List State → Bool
  | [] => false
  | [s] => s.finishedAt e
  | s :: rest => !s.faulted && runFinished e rest

end Sys2Proof.Machine
end

