-- ==== Sys2Proof/Certificates/Slice0/Obligations.lean ====
section
/-! DEFINITION. The statements for the provers. Each says which rules of spec/ it formalises; the terms they are stated
in are in Sys2Proof/Safety.lean. A statement on `hostMove m s` is one on `step`, whose next move is the script's head. -/

section Slice0Statements

open Sys2Proof Sys2Proof.Machine

/-! ## Encoding -/

/-- Every well-formed instruction is decoded from its own bytes, whatever follows them (30_encoding R90, R91, R104). -/
def Obligations.DecodeOfEncode : Prop :=
  ∀ (i : Instr) (rest : List Byte), i.wellFormed = true → decode (encode i ++ rest) = .instr i rest

/-- What decodes to an instruction begins with that instruction's bytes, and the instruction is well formed
(30_encoding R90, R91, R104). -/
def Obligations.EncodeOfDecode : Prop :=
  ∀ (bytes : List Byte) (i : Instr) (rest : List Byte),
    decode bytes = .instr i rest → i.wellFormed = true ∧ bytes = encode i ++ rest

/-- Words written out from 30_encoding R104, R91, R57, one for each of a few families (a sanity statement). -/
def Obligations.SpecWordsDecode : Prop :=
  decode [0xB5#8, 0xF0#8] = .instr (.ldaZpx 0xF0#8) [] ∧
    decode [0x9D#8, 0x00#8, 0x02#8] = .instr (.staAbsx 0x0200#16) [] ∧
    decode [0x61#8, 0x80#8] = .instr (.adcIndx 0x80#8) [] ∧
    decode [0x6E#8, 0x34#8, 0x12#8] = .instr (.rorAbs 0x1234#16) [] ∧
    decode [0xD0#8, 0xF9#8] = .instr (.bne (-7)) [] ∧
    decode [0x6C#8, 0xFF#8, 0x02#8] = .instr (.jmpInd 0x02FF#16) [] ∧
    decode [0x9A#8] = .instr .txs [] ∧ decode [0x78#8] = .instr .sei []

/-- The bytes that decode to no instruction are exactly the 105 unmapped ones (30_encoding R106). -/
def Obligations.UnmappedBytesAreRejected : Prop :=
  ∀ (op : Byte) (rest : List Byte), decode (op :: rest) = .rejected (.unmapped op) ↔ op ∈ unmappedBytes

/-! ## The step -/

/-- A step runs the instruction at PC: the bytes in memory at PC decode to `i`, and the step is `exec i` followed by the
step log, the watchpoint pause and the breakpoint pause (30_encoding R101). Second clause: the same wherever the fetch
goes through a device or another board. That an empty script means `step()` is the model's form (log entry 8). -/
def Obligations.StepRunsDecodedInstruction : Prop :=
  (∀ (s : State) (bytes rest : List Byte) (i : Instr),
    s.script = [] → s.paused = false → s.holdsBytes s.pc bytes → decode bytes = .instr i rest →
      step s =
        match exec i s with
        | .next t => .next (t.finish (logEntryOf i s.pc))
        | .fault f => .fault f
        | .refused r => .refused r) ∧
  ∀ (s s1 : State) (i : Instr) (e : LogEntry),
    s.script = [] → s.paused = false → fetch s = (.instr i e, s1) →
      e = logEntryOf i s.pc ∧
      step s =
        match exec i s1 with
        | .next t => .next (t.finish e)
        | .fault f => .fault f
        | .refused r => .refused r

/-- An unmapped opcode byte pauses: one bus read, then nothing but the pause, with PC unchanged and 0 cycles
(60_exceptions R301, 30_encoding R106). -/
def Obligations.UnmappedOpcodePauses : Prop :=
  ∀ s : State, s.script = [] → s.paused = false → (busRead s.pc s).1 ∈ unmappedBytes →
    ∃ t, step s = .next t ∧ t.paused = true ∧
      t.pauseReason = some (.unmappedOpcode (busRead s.pc s).1 s.pc) ∧ t.result = .cycles 0 ∧ t.cycles = s.cycles ∧
      t.a = s.a ∧ t.x = s.x ∧ t.y = s.y ∧ t.sp = s.sp ∧ t.p = s.p ∧ t.pc = s.pc ∧ KeepsSets s t ∧ KeepsMemory s t ∧
      KeepsDevices (busRead s.pc s).2 t ∧ t.watchHit = s.watchHit ∧ t.faulted = true

/-- The machine stops in one case only: the host's next move is `step()` and `paused` is true. That it stops there is the
model's choice (log entry 9); 60_exceptions R300 says that the host does not make that call. -/
def Obligations.StopsOnlySteppingWhilePaused : Prop :=
  ∀ s : State,
    (step s = .fault .stepWhilePaused ↔ s.paused = true ∧ (s.script = [] ∨ s.script.head? = some .step)) ∧
      (step s ≠ .fault .stepWhilePaused → ∃ t, step s = .next t)

/-- Every instruction completes; one that is no branch returns the base cycles of its table row, and one more exactly
where the row takes the page-cross penalty and the address phase crossed; the rows with the penalty are those of
30_encoding R103. -/
def Obligations.EveryInstructionCompletesWithTableCycles : Prop :=
  ∀ (i : Instr) (s : State), ∃ row t, tableRow i.opcode = some row ∧ row.op = i.op ∧ row.mode = i.operand.mode ∧
    (row.penalty = true ↔
      i.op ∈ [Op.adc, Op.and, Op.cmp, Op.eor, Op.lda, Op.ldx, Op.ldy, Op.ora, Op.sbc] ∧
        i.operand.mode ∈ [Mode.absx, Mode.absy, Mode.indy]) ∧
    exec i s = .next t ∧
    (i.operand.mode ≠ .rel →
      t.result = .cycles (row.base + if row.penalty = true ∧ (addressed i.operand s).1.crossed = true then 1 else 0) ∧
        t.cycles = s.cycles + (row.base + if row.penalty = true ∧ (addressed i.operand s).1.crossed = true then 1 else 0))

/-! ## Addressing -/

/-- The addressing modes that read nothing: effective address, page test, and PC past the instruction, nothing else
changed (30_encoding R92 to R96, R100). -/
def Obligations.AddressingWithoutReads : Prop :=
  ∀ (s : State) (b : Byte) (w : Addr),
    addressed .imp s = ({ addr := none, crossed := false }, { s with pc := s.pc + 1 }) ∧
    addressed .acc s = ({ addr := none, crossed := false }, { s with pc := s.pc + 1 }) ∧
    addressed (.imm b) s = ({ addr := some (s.pc + 1), crossed := false }, { s with pc := s.pc + 2 }) ∧
    addressed (.zp b) s = ({ addr := some (b.setWidth 16), crossed := false }, { s with pc := s.pc + 2 }) ∧
    addressed (.zpx b) s = ({ addr := some ((b + s.x).setWidth 16), crossed := false }, { s with pc := s.pc + 2 }) ∧
    addressed (.zpy b) s = ({ addr := some ((b + s.y).setWidth 16), crossed := false }, { s with pc := s.pc + 2 }) ∧
    addressed (.abs w) s = ({ addr := some w, crossed := false }, { s with pc := s.pc + 3 }) ∧
    addressed (.absx w) s =
      ({ addr := some (BitVec.ofNat 16 (w.toNat + s.x.toNat)),
         crossed := decide ((w.toNat + s.x.toNat) / 256 ≠ w.toNat / 256) }, { s with pc := s.pc + 3 }) ∧
    addressed (.absy w) s =
      ({ addr := some (BitVec.ofNat 16 (w.toNat + s.y.toNat)),
         crossed := decide ((w.toNat + s.y.toNat) / 256 ≠ w.toNat / 256) }, { s with pc := s.pc + 3 }) ∧
    addressed (.rel b.toInt) s =
      ({ addr := some (s.pc + 2 + b.signExtend 16), crossed := false }, { s with pc := s.pc + 2 })

/-- The addressing modes through a pointer. Both pointer bytes of the zero-page modes are in page 0 of RAM and both bytes
of the JMP pointer are in one page (30_encoding R97 to R99); the JMP pointer's bytes are read by the bus, low byte first,
and where they are memory nothing but PC changes. -/
def Obligations.AddressingThroughPointers : Prop :=
  ∀ (s : State) (b : Byte) (w : Addr),
    addressed (.indx b) s =
      ({ addr := some (wordOf (s.ram.read (b + s.x + 1).toNat) (s.ram.read (b + s.x).toNat)), crossed := false },
        { s with pc := s.pc + 2 }) ∧
    addressed (.indy b) s =
      ({ addr := some (wordOf (s.ram.read (b + 1).toNat) (s.ram.read b.toNat) + s.y.setWidth 16),
         crossed := decide (hiByte (wordOf (s.ram.read (b + 1).toNat) (s.ram.read b.toNat) + s.y.setWidth 16) ≠
           s.ram.read (b + 1).toNat) },
        { s with pc := s.pc + 2 }) ∧
    (∀ lo hi s1 s2, busRead w { s with pc := s.pc + 3 } = (lo, s1) →
      busRead (wordOf (hiByte w) (loByte w + 1)) s1 = (hi, s2) →
        addressed (.ind w) s = ({ addr := some (wordOf hi lo), crossed := false }, s2)) ∧
    (∀ cl ch, s.readCell w = some cl → s.readCell (wordOf (hiByte w) (loByte w + 1)) = some ch →
      addressed (.ind w) s =
        ({ addr := some (wordOf (s.cellByte ch) (s.cellByte cl)), crossed := false }, { s with pc := s.pc + 3 }))

/-- `LoadOperand()`: the immediate byte or A with no access, else one data read at the effective address, which is the
byte of memory there, with nothing changed but the watchpoint note, where that address is memory (30_encoding R93, R101,
43 R180, 60_exceptions R315). -/
def Obligations.OperandIsOneRead : Prop :=
  ∀ (i : Instr) (s : State),
    (∀ v, i.operand = .imm v → operandValue i s = v ∧ operandState i s = { s with pc := s.pc + 2 }) ∧
    (i.operand = .acc → operandValue i s = s.a ∧ operandState i s = { s with pc := s.pc + 1 }) ∧
    (∀ a, effAddr i s = some a → i.operand.mode ≠ .imm →
      operandValue i s = (busRead a (addressedState i s)).1 ∧
      operandState i s =
        { (busRead a (addressedState i s)).2 with
          watchHit := if s.watchHit = none ∧ a.toNat ∈ s.readWatch then some (a, .read) else s.watchHit } ∧
      ∀ c, (addressedState i s).readCell a = some c →
        operandValue i s = s.cellByte c ∧ (busRead a (addressedState i s)).2 = addressedState i s)

/-! ## The bus -/

/-- RAM and its mirrors: an address below 0x2000 is RAM byte `a mod 0x0800` (20_memory R53). -/
def Obligations.RamAndMirrors : Prop :=
  ∀ (a : Addr) (v : Byte) (s : State), a.toNat < 0x2000 →
    busRead a s = (s.ram.read (a.toNat % 0x0800), s) ∧
      busWrite a v s = { s with ram := s.ram.write (a.toNat % 0x0800) v }

/-- A read of memory gives the byte of the latest write to it: a write of `v` to `a` is seen at every address `b` of the
same cell, through every mirror, and at no other (20_memory R66, R69). -/
def Obligations.ReadGivesLatestWrite : Prop :=
  ∀ (a b : Addr) (v : Byte) (c : Cell) (s : State), s.memoriesOk = true → s.readCell b = some c →
    (busRead b (busWrite a v s)).1 = if s.writeCell a = some c then v else (busRead b s).1

/-- The PPU register range and the addresses nothing backs: reads are draws, writes are events or nothing
(20_memory R54, R56, 50_apu R251). That a draw is a free value indexed by a counter, and an event an entry of a list, is
the model's form (log entries 6, 7, 11). -/
def Obligations.PpuAndUnbackedAccesses : Prop :=
  ∀ (a : Addr) (v : Byte) (s : State),
    (0x2000 ≤ a.toNat → a.toNat < 0x4000 →
      busRead a s = (Config.ppuRead s.draws (0x2000 + a.toNat % 8), { s with draws := s.draws + 1 }) ∧
        busWrite a v s = { s with events := .ppuWrite (0x2000 + a.toNat % 8) v :: s.events }) ∧
    (0x4000 ≤ a.toNat → a.toNat < 0x4020 → a ≠ 0x4015 → a ≠ 0x4016 → a ≠ 0x4017 →
      busRead a s = (Config.draw s.draws, { s with draws := s.draws + 1 })) ∧
    (∀ size, s.board = .nrom size → 0x4020 ≤ a.toNat → a.toNat < 0x6000 →
      busRead a s = (Config.draw s.draws, { s with draws := s.draws + 1 }) ∧ busWrite a v s = s)

/-- Every write to the APU window goes to the mirror; a write to 0x4014 is also the sprite-DMA event; a write to 0x4014 or
0x4017 or above has no further effect (50_apu R250, R253, 20_memory R55). -/
def Obligations.ApuWindowWrites : Prop :=
  ∀ (a : Addr) (v : Byte) (s : State), 0x4000 ≤ a.toNat → a.toNat < 0x4020 →
    (busWrite a v s).apu.reg (a.setWidth 5) = v ∧
    (∀ j : BitVec 5, j ≠ a.setWidth 5 → (busWrite a v s).apu.reg j = s.apu.reg j) ∧
    (busWrite a v s).events = (if a = 0x4014 then .spriteDma v :: s.events else s.events) ∧
    (busWrite a v s).apu.frameIrq = s.apu.frameIrq ∧
    (a ≠ 0x4015 → (busWrite a v s).apu.dmcIrq = s.apu.dmcIrq) ∧
    (a = 0x4014 ∨ 0x4017 ≤ a.toNat → (busWrite a v s).apu = s.apu.setReg (a.setWidth 5) v) ∧
    busWrite a v s = { s with apu := (busWrite a v s).apu, events := (busWrite a v s).events }

/-- The NROM reference board (20_memory R65, R53). -/
def Obligations.NromBoard : Prop :=
  ∀ (size : PrgSize) (a : Addr) (v : Byte) (s : State), s.board = .nrom size →
    (0x8000 ≤ a.toNat →
      busRead a s =
        (s.prgRom.read ((a.toNat - 0x8000) % (match size with | .k16 => 16 * 1024 | .k32 => 32 * 1024)), s) ∧
      busWrite a v s = s) ∧
    (0x6000 ≤ a.toNat → a.toNat < 0x8000 →
      busRead a s = (s.cartRam.read (a.toNat - 0x6000), s) ∧
        busWrite a v s = { s with cartRam := s.cartRam.write (a.toNat - 0x6000) v }) ∧
    s.irqAsserted = (s.apu.frameIrq || s.apu.dmcIrq)

/-- A board other than NROM. A write in its cartridge range: one it claims is a bank switch and nothing else (the board's
new state, every index masked into a valid bank, no byte of memory stored); one it does not claim changes at most the byte
of cartridge RAM; and the next access resolves through the new state (20_memory R52, R53, R62, R63). A read gives the byte
the board resolves, runs the board's read side effect, and changes nothing else (20_memory R60). That an unclaimed write
stores in cartridge RAM below 0x8000 only, that a read's side effect comes after its byte, and that a rising line invokes
the trigger is the model's reading (log entry 17); that an unbacked read is a free value of a counter is the model's form
(log entry 6), and so are the event and the trigger note (log entry 11). -/
def Obligations.BoardWriteSwitchesBanks : Prop :=
  ∀ (id : Nat) (a : Addr) (v : Byte) (s : State), s.board = .custom id → 0x4020 ≤ a.toNat →
    ((busWrite a v s).mapper.other =
      (if Config.boardClaims id a = true then (Config.boardOnWrite id a v s.mapper).other else s.mapper.other) ∧
    (∀ k, (busWrite a v s).mapper.banks[k]? =
      if Config.boardClaims id a = true
        then (Config.boardOnWrite id a v s.mapper).banks[k]?.map (· % (Config.boardLastBank id k + 1))
        else s.mapper.banks[k]?) ∧
    (busWrite a v s).cartRam =
      (if Config.boardClaims id a = true ∨ 0x8000 ≤ a.toNat then s.cartRam
        else match Config.boardResolve id a s.mapper with
          | .cartRam off => s.cartRam.write off v
          | .prg _ => s.cartRam
          | .unbacked => s.cartRam) ∧
    (busWrite a v s).events =
      (if Config.boardClaims id a = true ∧ Config.boardIrq id s.mapper = false ∧
          Config.boardIrq id (busWrite a v s).mapper = true
        then .irqTrigger :: s.events else s.events) ∧
    ((busWrite a v s).irqTrigger = true ↔ s.irqTrigger = true ∨
      (Config.boardClaims id a = true ∧ Config.boardIrq id s.mapper = false ∧
        Config.boardIrq id (busWrite a v s).mapper = true)) ∧
    busWrite a v s =
      { s with
        mapper := (busWrite a v s).mapper
        cartRam := (busWrite a v s).cartRam
        events := (busWrite a v s).events
        irqTrigger := (busWrite a v s).irqTrigger } ∧
    ∀ b : Addr, 0x4020 ≤ b.toNat →
      (busRead b (busWrite a v s)).1 =
        match Config.boardResolve id b (busWrite a v s).mapper with
        | .prg off => s.prgRom.read off
        | .cartRam off => (busWrite a v s).cartRam.read off
        | .unbacked => Config.draw s.draws) ∧
    (busRead a s).1 =
      (match Config.boardResolve id a s.mapper with
        | .prg off => s.prgRom.read off
        | .cartRam off => s.cartRam.read off
        | .unbacked => Config.draw s.draws) ∧
    (busRead a s).2 =
      { s with
        mapper := Config.boardOnRead id a s.mapper
        draws :=
          match Config.boardResolve id a s.mapper with
          | .prg _ => s.draws
          | .cartRam _ => s.draws
          | .unbacked => s.draws + 1
        events :=
          if Config.boardIrq id s.mapper = false ∧ Config.boardIrq id (Config.boardOnRead id a s.mapper) = true
            then .irqTrigger :: s.events else s.events
        irqTrigger :=
          s.irqTrigger || (!Config.boardIrq id s.mapper && Config.boardIrq id (Config.boardOnRead id a s.mapper)) }

/-! ## Loads, stores, transfers, stack -/

/-- LDA, LDX, LDY: the register holds the operand, N and Z follow it, nothing else changes
(41_load_store_transfer R131 to R133). -/
def Obligations.LoadsSetRegisterAndNZ : Prop :=
  ∀ (i : Instr) (s : State),
    (i.op = .lda → ∃ t, exec i s = .next t ∧ t.a = operandValue i s ∧ t.x = s.x ∧ t.y = s.y ∧
      FlagsNZ s.p t.p (operandValue i s) ∧ ReadsOnly i s t) ∧
    (i.op = .ldx → ∃ t, exec i s = .next t ∧ t.x = operandValue i s ∧ t.a = s.a ∧ t.y = s.y ∧
      FlagsNZ s.p t.p (operandValue i s) ∧ ReadsOnly i s t) ∧
    (i.op = .ldy → ∃ t, exec i s = .next t ∧ t.y = operandValue i s ∧ t.a = s.a ∧ t.x = s.x ∧
      FlagsNZ s.p t.p (operandValue i s) ∧ ReadsOnly i s t)

/-- STA, STX, STY: the register is stored at the effective address, with no read of it and no flag
(41_load_store_transfer R134 to R136). -/
def Obligations.StoresWriteRegister : Prop :=
  ∀ (i : Instr) (s : State),
    (i.op = .sta → ∃ t, exec i s = .next t ∧ StoresOnly i s.a s t) ∧
    (i.op = .stx → ∃ t, exec i s = .next t ∧ StoresOnly i s.x s t) ∧
    (i.op = .sty → ∃ t, exec i s = .next t ∧ StoresOnly i s.y s t)

/-- TAX, TAY, TSX, TXA, TYA copy a register and set N and Z; TXS copies X to S and sets no flag
(41_load_store_transfer R137 to R142). -/
def Obligations.TransfersCopyRegister : Prop :=
  ∀ s : State,
    (∃ t, exec .tax s = .next t ∧ t.x = s.a ∧ t.a = s.a ∧ t.y = s.y ∧ t.sp = s.sp ∧ FlagsNZ s.p t.p s.a ∧
      RegistersOnly .tax s t) ∧
    (∃ t, exec .tay s = .next t ∧ t.y = s.a ∧ t.a = s.a ∧ t.x = s.x ∧ t.sp = s.sp ∧ FlagsNZ s.p t.p s.a ∧
      RegistersOnly .tay s t) ∧
    (∃ t, exec .tsx s = .next t ∧ t.x = s.sp ∧ t.a = s.a ∧ t.y = s.y ∧ t.sp = s.sp ∧ FlagsNZ s.p t.p s.sp ∧
      RegistersOnly .tsx s t) ∧
    (∃ t, exec .txa s = .next t ∧ t.a = s.x ∧ t.x = s.x ∧ t.y = s.y ∧ t.sp = s.sp ∧ FlagsNZ s.p t.p s.x ∧
      RegistersOnly .txa s t) ∧
    (∃ t, exec .txs s = .next t ∧ t.sp = s.x ∧ t.a = s.a ∧ t.x = s.x ∧ t.y = s.y ∧ t.p = s.p ∧
      RegistersOnly .txs s t) ∧
    (∃ t, exec .tya s = .next t ∧ t.a = s.y ∧ t.x = s.x ∧ t.y = s.y ∧ t.sp = s.sp ∧ FlagsNZ s.p t.p s.y ∧
      RegistersOnly .tya s t)

/-- PHA, PHP, PLA, PLP (41_load_store_transfer R143 to R146, 10_state R21, R26): a push stores at 0x0100 + S and
decrements S, a pop increments S and reads at 0x0100 + S, both in RAM and both wrapping in page 1. -/
def Obligations.StackInstructions : Prop :=
  ∀ s : State,
    (∃ t, exec .pha s = .next t ∧ t.a = s.a ∧ t.x = s.x ∧ t.y = s.y ∧ t.p = s.p ∧ t.sp = s.sp - 1 ∧
      t.pc = s.pc + 1 ∧ KeepsHost s t ∧ KeepsDevices s t ∧ t.watchHit = s.watchHit ∧ Charges s t 3 ∧
      (s.ram.wf = true → t.cellByte (stackCell s.sp) = s.a) ∧ KeepsMemoryBut (some (stackCell s.sp)) s t) ∧
    (∃ t, exec .php s = .next t ∧ t.a = s.a ∧ t.x = s.x ∧ t.y = s.y ∧ t.p = s.p ∧ t.sp = s.sp - 1 ∧
      t.pc = s.pc + 1 ∧ KeepsHost s t ∧ KeepsDevices s t ∧ t.watchHit = s.watchHit ∧ Charges s t 3 ∧
      (s.ram.wf = true → t.cellByte (stackCell s.sp) = s.p ||| 0x30#8) ∧
      KeepsMemoryBut (some (stackCell s.sp)) s t) ∧
    (∃ t, exec .pla s = .next t ∧ t.a = s.cellByte (stackCell (s.sp + 1)) ∧ t.x = s.x ∧ t.y = s.y ∧
      FlagsNZ s.p t.p (s.cellByte (stackCell (s.sp + 1))) ∧ t.sp = s.sp + 1 ∧ RegistersOnly .pla s t) ∧
    (∃ t, exec .plp s = .next t ∧ t.a = s.a ∧ t.x = s.x ∧ t.y = s.y ∧
      t.p = s.cellByte (stackCell (s.sp + 1)) ||| 0x20#8 ∧ t.sp = s.sp + 1 ∧ RegistersOnly .plp s t)

/-! ## Logic, arithmetic, compares -/

/-- AND, ORA, EOR: A takes the bitwise result, N and Z follow it (42_logic_arith_compare R161 to R163). -/
def Obligations.LogicalInstructions : Prop :=
  ∀ (i : Instr) (s : State),
    (i.op = .and → ∃ t, exec i s = .next t ∧ t.a = s.a &&& operandValue i s ∧ t.x = s.x ∧ t.y = s.y ∧
      FlagsNZ s.p t.p t.a ∧ ReadsOnly i s t) ∧
    (i.op = .ora → ∃ t, exec i s = .next t ∧ t.a = s.a ||| operandValue i s ∧ t.x = s.x ∧ t.y = s.y ∧
      FlagsNZ s.p t.p t.a ∧ ReadsOnly i s t) ∧
    (i.op = .eor → ∃ t, exec i s = .next t ∧ t.a = s.a ^^^ operandValue i s ∧ t.x = s.x ∧ t.y = s.y ∧
      FlagsNZ s.p t.p t.a ∧ ReadsOnly i s t)

/-- BIT: Z from `A & m`, N and V from the operand byte, A unchanged (42_logic_arith_compare R164). -/
def Obligations.BitTest : Prop :=
  ∀ (i : Instr) (s : State), i.op = .bit →
    ∃ t, exec i s = .next t ∧ t.a = s.a ∧ t.x = s.x ∧ t.y = s.y ∧
      (getFlag t.p .z = true ↔ s.a &&& operandValue i s = 0) ∧
      getFlag t.p .n = (operandValue i s).getLsbD 7 ∧ getFlag t.p .v = (operandValue i s).getLsbD 6 ∧
      (∀ f : Flag, f ≠ .z → f ≠ .n → f ≠ .v → getFlag t.p f = getFlag s.p f) ∧ ReadsOnly i s t

/-- ADC: the binary sum of A, the operand and the carry, whatever D holds (42_logic_arith_compare R160, R165). -/
def Obligations.AddWithCarryInstruction : Prop :=
  ∀ (i : Instr) (s : State), i.op = .adc →
    ∃ t, exec i s = .next t ∧ AdderGives s.a (operandValue i s) s.p t.p t.a ∧ t.x = s.x ∧ t.y = s.y ∧ ReadsOnly i s t

/-- SBC: the adder on the one's complement of the operand; so A takes `A - m - (1 - C)` mod 256 and C says that no
borrow occurred, whatever D holds (42_logic_arith_compare R160, R166). -/
def Obligations.SubtractWithBorrowInstruction : Prop :=
  ∀ (i : Instr) (s : State), i.op = .sbc →
    ∃ t, exec i s = .next t ∧ AdderGives s.a (255#8 - operandValue i s) s.p t.p t.a ∧
      t.a = BitVec.ofInt 8 ((s.a.toNat : Int) - (operandValue i s).toNat - (1 - (getFlag s.p .c).toNat)) ∧
      (getFlag t.p .c = true ↔
        0 ≤ (s.a.toNat : Int) - (operandValue i s).toNat - (1 - ((getFlag s.p .c).toNat : Int))) ∧
      t.x = s.x ∧ t.y = s.y ∧ ReadsOnly i s t

/-- CMP, CPX, CPY: N and Z from the masked difference, C from an unsigned `>=`, V and every register unchanged
(42_logic_arith_compare R167 to R169). -/
def Obligations.ComparesSetFlags : Prop :=
  ∀ (i : Instr) (s : State),
    (i.op = .cmp → ∃ t, exec i s = .next t ∧ t.a = s.a ∧ t.x = s.x ∧ t.y = s.y ∧
      FlagsNZC s.p t.p (s.a - operandValue i s) (decide ((operandValue i s).toNat ≤ s.a.toNat)) ∧ ReadsOnly i s t) ∧
    (i.op = .cpx → ∃ t, exec i s = .next t ∧ t.a = s.a ∧ t.x = s.x ∧ t.y = s.y ∧
      FlagsNZC s.p t.p (s.x - operandValue i s) (decide ((operandValue i s).toNat ≤ s.x.toNat)) ∧ ReadsOnly i s t) ∧
    (i.op = .cpy → ∃ t, exec i s = .next t ∧ t.a = s.a ∧ t.x = s.x ∧ t.y = s.y ∧
      FlagsNZC s.p t.p (s.y - operandValue i s) (decide ((operandValue i s).toNat ≤ s.y.toNat)) ∧ ReadsOnly i s t)

/-! ## Increments, decrements, shifts -/

/-- INC, DEC: one read and one write of the operand, N and Z follow the new value, C and V unchanged
(43_incdec_shift R180 to R182). -/
def Obligations.IncDecMemory : Prop :=
  ∀ (i : Instr) (s : State),
    (i.op = .inc → ∃ t, exec i s = .next t ∧ ModifiesOnly i (operandValue i s + 1) s t ∧
      FlagsNZ s.p t.p (operandValue i s + 1)) ∧
    (i.op = .dec → ∃ t, exec i s = .next t ∧ ModifiesOnly i (operandValue i s - 1) s t ∧
      FlagsNZ s.p t.p (operandValue i s - 1))

/-- INX, INY, DEX, DEY: the register wraps mod 256, N and Z follow it (43_incdec_shift R183 to R186). -/
def Obligations.IncDecRegister : Prop :=
  ∀ s : State,
    (∃ t, exec .inx s = .next t ∧ t.x = s.x + 1 ∧ t.a = s.a ∧ t.y = s.y ∧ t.sp = s.sp ∧ FlagsNZ s.p t.p (s.x + 1) ∧
      RegistersOnly .inx s t) ∧
    (∃ t, exec .iny s = .next t ∧ t.y = s.y + 1 ∧ t.a = s.a ∧ t.x = s.x ∧ t.sp = s.sp ∧ FlagsNZ s.p t.p (s.y + 1) ∧
      RegistersOnly .iny s t) ∧
    (∃ t, exec .dex s = .next t ∧ t.x = s.x - 1 ∧ t.a = s.a ∧ t.y = s.y ∧ t.sp = s.sp ∧ FlagsNZ s.p t.p (s.x - 1) ∧
      RegistersOnly .dex s t) ∧
    (∃ t, exec .dey s = .next t ∧ t.y = s.y - 1 ∧ t.a = s.a ∧ t.x = s.x ∧ t.sp = s.sp ∧ FlagsNZ s.p t.p (s.y - 1) ∧
      RegistersOnly .dey s t)

/-- ASL, LSR, ROL, ROR on A or on memory: the new value, the bit shifted out in C, the old carry shifted in by the
rotates, N and Z from the new value (43_incdec_shift R180, R187 to R190). -/
def Obligations.ShiftsAndRotates : Prop :=
  ∀ (i : Instr) (s : State) (v : Byte),
    (i.op = .asl → v.toNat = 2 * (operandValue i s).toNat % 256 →
      ∃ t, exec i s = .next t ∧ ModifiesOnly i v s t ∧ FlagsNZC s.p t.p v ((operandValue i s).getLsbD 7)) ∧
    (i.op = .lsr → v.toNat = (operandValue i s).toNat / 2 →
      ∃ t, exec i s = .next t ∧ ModifiesOnly i v s t ∧ FlagsNZC s.p t.p v ((operandValue i s).getLsbD 0)) ∧
    (i.op = .rol → v.toNat = (2 * (operandValue i s).toNat + (getFlag s.p .c).toNat) % 256 →
      ∃ t, exec i s = .next t ∧ ModifiesOnly i v s t ∧ FlagsNZC s.p t.p v ((operandValue i s).getLsbD 7)) ∧
    (i.op = .ror → v.toNat = (operandValue i s).toNat / 2 + 128 * (getFlag s.p .c).toNat →
      ∃ t, exec i s = .next t ∧ ModifiesOnly i v s t ∧ FlagsNZC s.p t.p v ((operandValue i s).getLsbD 0))

/-! ## Control flow -/

/-- The eight branches: taken exactly on their condition, to the address after the branch plus the displacement, at 2, 3
or 4 cycles, and no flag, register or byte of memory changed (44_control_flow R200 to R208). -/
def Obligations.BranchesTestOneFlag : Prop :=
  ∀ (d : Int) (s : State),
    (∃ t, exec (.bpl d) s = .next t ∧ BranchLeaves d (!getFlag s.p .n) s t) ∧
    (∃ t, exec (.bmi d) s = .next t ∧ BranchLeaves d (getFlag s.p .n) s t) ∧
    (∃ t, exec (.bvc d) s = .next t ∧ BranchLeaves d (!getFlag s.p .v) s t) ∧
    (∃ t, exec (.bvs d) s = .next t ∧ BranchLeaves d (getFlag s.p .v) s t) ∧
    (∃ t, exec (.bcc d) s = .next t ∧ BranchLeaves d (!getFlag s.p .c) s t) ∧
    (∃ t, exec (.bcs d) s = .next t ∧ BranchLeaves d (getFlag s.p .c) s t) ∧
    (∃ t, exec (.bne d) s = .next t ∧ BranchLeaves d (!getFlag s.p .z) s t) ∧
    (∃ t, exec (.beq d) s = .next t ∧ BranchLeaves d (getFlag s.p .z) s t)

/-- JMP goes to the effective address and changes nothing else; JSR pushes the address of its last byte, high byte first,
and goes to its operand (44_control_flow R209, R210). -/
def Obligations.JumpsAndCalls : Prop :=
  ∀ (w : Addr) (s : State),
    (∀ i, i.op = .jmp → ∃ t a, exec i s = .next t ∧ effAddr i s = some a ∧ t.pc = a ∧ t.a = s.a ∧ t.x = s.x ∧
      t.y = s.y ∧ t.sp = s.sp ∧ t.p = s.p ∧ KeepsHost s t ∧ KeepsMemory s t ∧ KeepsDevices (addressedState i s) t ∧
      t.watchHit = s.watchHit ∧ Charges s t (tableCycles i s)) ∧
    (∃ t, exec (.jsr w) s = .next t ∧ t.pc = w ∧ t.a = s.a ∧ t.x = s.x ∧ t.y = s.y ∧ t.sp = s.sp - 2 ∧ t.p = s.p ∧
      KeepsHost s t ∧ KeepsDevices s t ∧ t.watchHit = s.watchHit ∧ Charges s t 6 ∧
      (s.ram.wf = true → t.cellByte (stackCell s.sp) = hiByte (s.pc + 2) ∧
        t.cellByte (stackCell (s.sp - 1)) = loByte (s.pc + 2)) ∧
      ∀ c, c ≠ stackCell s.sp → c ≠ stackCell (s.sp - 1) → t.cellByte c = s.cellByte c)

/-- RTS pops the word and goes one past it; RTI pops the status with bit 5 forced to 1, then the word, and goes to it
(44_control_flow R211, R212, 60_exceptions R310). -/
def Obligations.Returns : Prop :=
  ∀ s : State,
    (∃ t, exec .rts s = .next t ∧
      t.pc = wordOf (s.cellByte (stackCell (s.sp + 2))) (s.cellByte (stackCell (s.sp + 1))) + 1 ∧ t.sp = s.sp + 2 ∧
      t.a = s.a ∧ t.x = s.x ∧ t.y = s.y ∧ t.p = s.p ∧ KeepsHost s t ∧ KeepsMemory s t ∧ KeepsDevices s t ∧
      t.watchHit = s.watchHit ∧ Charges s t 6) ∧
    (∃ t, exec .rti s = .next t ∧ t.p = s.cellByte (stackCell (s.sp + 1)) ||| 0x20#8 ∧
      t.pc = wordOf (s.cellByte (stackCell (s.sp + 3))) (s.cellByte (stackCell (s.sp + 2))) ∧ t.sp = s.sp + 3 ∧
      t.a = s.a ∧ t.x = s.x ∧ t.y = s.y ∧ KeepsHost s t ∧ KeepsMemory s t ∧ KeepsDevices s t ∧
      t.watchHit = s.watchHit ∧ Charges s t 6)

/-- BRK enters through the IRQ vector with return address PC + 2 and the pushed status with B and R set, whatever I holds
(44_control_flow R213, 60_exceptions R305). -/
def Obligations.BreakEntersIrqVector : Prop :=
  ∀ s : State, ∃ t, exec .brk s = .next t ∧ EntersThrough 0xFFFE#16 (s.pc + 2) (s.p ||| 0x30#8) s t ∧ KeepsHost s t ∧
    t.watchHit = s.watchHit ∧ Charges s t 7

/-- NOP changes nothing but PC; the seven flag instructions write exactly one bit of P
(44_control_flow R214, 45_flag_ops R230 to R236). -/
def Obligations.NopAndFlagInstructions : Prop :=
  ∀ (i : Instr) (s : State), i.op ∈ [Op.nop, Op.clc, Op.sec, Op.cli, Op.sei, Op.cld, Op.sed, Op.clv] →
    ∃ t, exec i s = .next t ∧ t.a = s.a ∧ t.x = s.x ∧ t.y = s.y ∧ t.sp = s.sp ∧ Charges s t 2 ∧ RegistersOnly i s t ∧
      ∀ f : Flag, getFlag t.p f =
        if i.op = .clc ∧ f = .c then false else if i.op = .sec ∧ f = .c then true
        else if i.op = .cli ∧ f = .i then false else if i.op = .sei ∧ f = .i then true
        else if i.op = .cld ∧ f = .d then false else if i.op = .sed ∧ f = .d then true
        else if i.op = .clv ∧ f = .v then false else getFlag s.p f

/-! ## Interrupts and pauses -/

/-- `nmi()` enters through the NMI vector whatever I holds, with B cleared in the pushed status, and pauses exactly when
its breakpoint is enabled (60_exceptions R303, R305). -/
def Obligations.NmiEntry : Prop :=
  ∀ s : State, ∃ t, hostMove .nmi s = .next t ∧ EntersThrough 0xFFFA#16 s.pc (s.p &&& 0xEF#8) s t ∧ KeepsSets s t ∧
    t.paused = (s.paused || s.bpNmi) ∧
    t.pauseReason = (if s.bpNmi = true then some .nmiBreakpoint else s.pauseReason) ∧
    t.result = .nothing ∧ t.watchHit = s.watchHit

/-- `requestIrq()` returns false without effect while I is set; else it enters through the IRQ vector with B cleared in
the pushed status and returns true; so a request right after an NMI entry is refused (60_exceptions R304, R305, R308). -/
def Obligations.IrqRequest : Prop :=
  ∀ s : State,
    (getFlag s.p .i = true → hostMove .requestIrq s = .next { s with result := .accepted false }) ∧
    (getFlag s.p .i = false → ∃ t, hostMove .requestIrq s = .next t ∧
      EntersThrough 0xFFFE#16 s.pc (s.p &&& 0xEF#8) s t ∧ KeepsHost s t ∧ t.result = .accepted true ∧
      t.watchHit = s.watchHit) ∧
    (∀ t, hostMove .nmi s = .next t → hostMove .requestIrq t = .next { t with result := .accepted false })

/-- Where a handler leaves the frame and S as it found them, RTI returns to the interrupted instruction with S and P as
they were but for bits 4 and 5, after NMI, IRQ and BRK alike; and where a subroutine leaves the two bytes JSR pushed and S
as it found them, RTS returns to the instruction after the JSR, whatever the subroutine wrote below them
(44_control_flow R210 to R213, 60_exceptions R303 to R305, R310). -/
def Obligations.EntryThenReturnResumes : Prop :=
  ∀ (s t h : State), s.ram.wf = true → h.sp = t.sp →
    h.cellByte (stackCell s.sp) = t.cellByte (stackCell s.sp) →
    h.cellByte (stackCell (s.sp - 1)) = t.cellByte (stackCell (s.sp - 1)) →
    (h.cellByte (stackCell (s.sp - 2)) = t.cellByte (stackCell (s.sp - 2)) →
      (hostMove .nmi s = .next t ∨ (getFlag s.p .i = false ∧ hostMove .requestIrq s = .next t) →
        ∃ u, exec .rti h = .next u ∧ u.pc = s.pc ∧ u.sp = s.sp ∧ u.p = (s.p ||| 0x20#8) &&& 0xEF#8) ∧
      (exec .brk s = .next t →
        ∃ u, exec .rti h = .next u ∧ u.pc = s.pc + 2 ∧ u.sp = s.sp ∧ u.p = s.p ||| 0x30#8)) ∧
    (∀ w, exec (.jsr w) s = .next t →
      ∃ u, exec .rts h = .next u ∧ u.pc = s.pc + 3 ∧ u.sp = s.sp ∧ u.p = h.p)

/-- The end of a step that executed an instruction: one log entry with the oldest dropped beyond the capacity, the
watchpoint pause for the first hit, the breakpoint pause on the PC left, the breakpoint's reason recorded when both are
raised; registers, memory, devices and the returned cycles as the instruction left them
(60_exceptions R300, R314 to R316). -/
def Obligations.EndOfStepLogsAndPauses : Prop :=
  ∀ (s s1 u : State) (i : Instr) (e : LogEntry), s.script = [] → s.paused = false →
    fetch s = (.instr i e, s1) → exec i s1 = .next u →
      ∃ t, step s = .next t ∧
        t.paused = (u.paused || u.watchHit.isSome || decide (u.pc.toNat ∈ u.breakpoints)) ∧
        t.pauseReason =
          (if u.pc.toNat ∈ u.breakpoints then some (.breakpoint u.pc)
            else match u.watchHit with
              | some (a, k) => some (.watchpoint a k)
              | none => u.pauseReason) ∧
        t.stepLog.length = min (u.stepLog.length + 1) s.params.stepLogCapacity ∧
        t.stepLog <:+ u.stepLog ++ [e] ∧
        t = { u with paused := t.paused, pauseReason := t.pauseReason, stepLog := t.stepLog, watchHit := none }

/-- No step raises `IllegalMode` (60_exceptions R302, 30_encoding R107). -/
def Obligations.IllegalModeNeverRaised : Prop :=
  ∀ s t : State, s.pauseReason ≠ some .illegalMode → step s = .next t → t.pauseReason ≠ some .illegalMode

/-- Only the resume move clears `paused` (60_exceptions R300, R317, 10_state R27). -/
def Obligations.OnlyResumeClearsPaused : Prop :=
  ∀ s t : State, s.paused = true → step s = .next t → s.script.head? ≠ some .resume → t.paused = true

/-- Debug state has no effect on anything else: two states that differ in debug state alone, both paused or both not,
step alike and differ in debug state alone afterwards; `step_log(N)`, which returns debug state, is the one exception
(60_exceptions R318, an inference of the spec's own). Both states have the same draw counter, and that equal counters draw
equal bytes is the model's form (log entries 6, 7): the two are one machine with and without its debug state. -/
def Obligations.DebugStateHasNoEffect : Prop :=
  ∀ s s' : State, s.withoutDebug = s'.withoutDebug → s.paused = s'.paused →
    (∀ n, s.script.head? ≠ some (.stepLog n)) →
      (step s = .fault .stepWhilePaused ∧ step s' = .fault .stepWhilePaused) ∨
        ∃ t t', step s = .next t ∧ step s' = .next t' ∧ t.withoutDebug = t'.withoutDebug

/-- The debug moves and resume, each with its whole effect (60_exceptions R313, R317). A disable is stated for a set in
its one form, strictly rising, which every step keeps (`StepKeepsInvariant`). -/
def Obligations.DebugMovesAndResume : Prop :=
  ∀ (a b : Addr) (n : Nat) (s : State),
    (∃ t, hostMove (.bpEnable a) s = .next t ∧
      t = { s with breakpoints := t.breakpoints, result := .nothing } ∧
      (b.toNat ∈ t.breakpoints ↔ b = a ∨ b.toNat ∈ s.breakpoints)) ∧
    (∃ t, hostMove (.bpDisable a) s = .next t ∧
      t = { s with breakpoints := t.breakpoints, result := .nothing } ∧
      (AddrSet.wf s.breakpoints = true → (b.toNat ∈ t.breakpoints ↔ b ≠ a ∧ b.toNat ∈ s.breakpoints))) ∧
    hostMove .bpEnableNmi s = .next { s with bpNmi := true, result := .nothing } ∧
    hostMove .bpDisableNmi s = .next { s with bpNmi := false, result := .nothing } ∧
    hostMove .bpClearAll s = .next { s with breakpoints := [], bpNmi := false, result := .nothing } ∧
    (∃ t, hostMove (.wpEnable a .read) s = .next t ∧ t = { s with readWatch := t.readWatch, result := .nothing } ∧
      (b.toNat ∈ t.readWatch ↔ b = a ∨ b.toNat ∈ s.readWatch)) ∧
    (∃ t, hostMove (.wpEnable a .write) s = .next t ∧ t = { s with writeWatch := t.writeWatch, result := .nothing } ∧
      (b.toNat ∈ t.writeWatch ↔ b = a ∨ b.toNat ∈ s.writeWatch)) ∧
    (∃ t, hostMove (.wpDisable a .read) s = .next t ∧ t = { s with readWatch := t.readWatch, result := .nothing } ∧
      (AddrSet.wf s.readWatch = true → (b.toNat ∈ t.readWatch ↔ b ≠ a ∧ b.toNat ∈ s.readWatch))) ∧
    (∃ t, hostMove (.wpDisable a .write) s = .next t ∧ t = { s with writeWatch := t.writeWatch, result := .nothing } ∧
      (AddrSet.wf s.writeWatch = true → (b.toNat ∈ t.writeWatch ↔ b ≠ a ∧ b.toNat ∈ s.writeWatch))) ∧
    (∃ l, hostMove (.stepLog n) s = .next { s with result := .log l } ∧ l <:+ s.stepLog ∧
      l.length = min n s.stepLog.length) ∧
    hostMove .resume s = .next { s with paused := false, result := .nothing }

/-- The reference delivery policies, and the order of one boundary: `onHblank`, `nmi`, the delivery, `step` unless paused
(60_exceptions R306, R308). That one boundary is a move of the script is the model's form (log entry 8), and so is the
note of a trigger, set by any number of triggers and cleared by one delivery, on which the EDGE_ONCE clauses rest (log
entry 11). -/
def Obligations.DeliveryAndBoundaryOrder : Prop :=
  ∀ (n : Nat) (s : State),
    (s.params.irqDelivery = .level →
      (s.apu.frameIrq = true ∨ s.apu.dmcIrq = true ∨ mapperIrq s.board s.mapper = true →
        hostMove .deliverIrq s = hostMove .requestIrq s) ∧
      (s.apu.frameIrq = false → s.apu.dmcIrq = false → mapperIrq s.board s.mapper = false →
        hostMove .deliverIrq s = .next { s with result := .nothing })) ∧
    (s.params.irqDelivery = .edgeOnce →
      (s.irqTrigger = true → hostMove .deliverIrq s = hostMove .requestIrq { s with irqTrigger := false }) ∧
      (s.irqTrigger = false → hostMove .deliverIrq s = .next { s with result := .nothing })) ∧
    hostMove (.boundary (some n) true) s =
      .next { s with
        script := .onHblank n :: .nmi :: .deliverIrq :: .stepUnlessPaused :: s.script
        result := .nothing } ∧
    hostMove (.boundary none true) s =
      .next { s with script := .nmi :: .deliverIrq :: .stepUnlessPaused :: s.script, result := .nothing } ∧
    hostMove (.boundary (some n) false) s =
      .next { s with script := .onHblank n :: .deliverIrq :: .stepUnlessPaused :: s.script, result := .nothing } ∧
    hostMove (.boundary none false) s =
      .next { s with script := .deliverIrq :: .stepUnlessPaused :: s.script, result := .nothing } ∧
    (s.paused = true → hostMove .stepUnlessPaused s = .next { s with result := .nothing }) ∧
    (s.paused = false → hostMove .stepUnlessPaused s = hostMove .step s)

/-! ## Resets -/

/-- `cpu.reset()`: P is 0x34, S three less with no stack access, PC from the reset vector, the step log empty, nothing
else changed (70_reset_and_hazards R330, R331). -/
def Obligations.CpuReset : Prop :=
  ∀ s : State, ∃ t, hostMove .cpuReset s = .next t ∧ t.p = 0x34#8 ∧ t.sp = s.sp - 3 ∧
    t.pc = (busRead16 0xFFFC#16 s).1 ∧ t.stepLog = [] ∧ t.a = s.a ∧ t.x = s.x ∧ t.y = s.y ∧ t.paused = s.paused ∧
    t.pauseReason = s.pauseReason ∧ t.breakpoints = s.breakpoints ∧ t.bpNmi = s.bpNmi ∧ t.readWatch = s.readWatch ∧
    t.writeWatch = s.writeWatch ∧ KeepsMemory s t ∧ t.chr = s.chr ∧ t.board = s.board ∧ t.params = s.params ∧
    t.script = s.script ∧ KeepsDevices (busRead16 0xFFFC#16 s).2 t ∧ t.cycles = s.cycles ∧ t.result = .nothing ∧
    ∀ size, s.board = .nrom size → KeepsDevices s t ∧
      t.pc = wordOf (s.prgRom.read (prgBytes size - 3)) (s.prgRom.read (prgBytes size - 4))

/-- `apu.reset()`: the mirror 0 but for 0x40 in byte 0x17, both flags clear, the five channels reset, the pads and
everything outside the APU unchanged (70_reset_and_hazards R332, 50_apu R288). -/
def Obligations.ApuReset : Prop :=
  ∀ s : State, ∃ u : Apu, hostMove .apuReset s = .next { s with apu := u, result := .nothing } ∧
    (∀ j : BitVec 5, u.reg j = if j = 0x17 then 0x40#8 else 0#8) ∧ u.frameIrq = false ∧ u.dmcIrq = false ∧
    u.padStatus0 = s.apu.padStatus0 ∧ u.padStatus1 = s.apu.padStatus1 ∧ u.padShift0 = s.apu.padShift0 ∧
    u.padShift1 = s.apu.padShift1 ∧
    (∀ c : Pulse, c = u.p1 ∨ c = u.p2 →
      c.regs = ⟨0, 0, 0, 0⟩ ∧ c.stopped = true ∧ c.enabled = false ∧ c.length = 0 ∧
        c.env = { divider := 0, counter := 0, reset := false } ∧ c.sweepCounter = 0) ∧
    u.tri.regs = ⟨0, 0, 0, 0⟩ ∧ u.tri.stopped = true ∧ u.tri.enabled = false ∧ u.tri.length = 0 ∧
    u.noi.regs = ⟨0, 0, 0, 0⟩ ∧ u.noi.stopped = true ∧ u.noi.enabled = false ∧ u.noi.length = 0 ∧
    u.noi.env = { divider := 0, counter := 0, reset := false } ∧
    u.dmc.regs = ⟨0, 0, 0, 0⟩ ∧ u.dmc.stopped = true ∧ u.dmc.enabled = false ∧ u.dmc.dmaLength = 0

/-- `system_reset()`: the mapper's `on_reset`, then the APU, then the CPU, so that the reset vector is read through the
bank the board selects at reset (70_reset_and_hazards R333). Power-on is construction, with the mapper at its board's
`init` and any power-on values, followed by it (10_state R45, 70_reset_and_hazards R333, R334). That the initial pause
reason is none is the model's choice and not stated (log entry 13). -/
def Obligations.SystemReset : Prop :=
  (∀ s : State, ∃ t, hostMove .systemReset s = .next t ∧ t.apu = s.apu.reset ∧ t.p = 0x34#8 ∧ t.sp = s.sp - 3 ∧
    t.pc = (busRead16 0xFFFC#16 { s with mapper := mapperOnReset s.board s.mapper }).1 ∧
    t.mapper = (busRead16 0xFFFC#16 { s with mapper := mapperOnReset s.board s.mapper }).2.mapper ∧
    t.a = s.a ∧ t.x = s.x ∧ t.y = s.y ∧ t.stepLog = [] ∧ t.paused = s.paused ∧ t.pauseReason = s.pauseReason ∧
    t.breakpoints = s.breakpoints ∧ t.bpNmi = s.bpNmi ∧ t.readWatch = s.readWatch ∧ t.writeWatch = s.writeWatch ∧
    KeepsMemory s t ∧ t.chr = s.chr ∧ t.board = s.board ∧ t.params = s.params ∧ t.script = s.script ∧
    t.cycles = s.cycles ∧ t.result = .nothing) ∧
  ∀ (board : Board) (params : Params) (prgRom chr ram cartRam : Memory) (a x y sp p : Byte) (pc : Addr) (u : Apu)
      (s : State),
    s = State.construct board params prgRom chr ram cartRam a x y sp p pc u →
      s.mapper = (match board with | .nrom _ => ⟨[], []⟩ | .custom id => Config.boardInit id) ∧
      ∃ t, hostMove .systemReset s = .next t ∧ t.a = a ∧ t.x = x ∧ t.y = y ∧ t.sp = sp - 3 ∧ t.p = 0x34#8 ∧
        t.paused = false ∧ t.breakpoints = [] ∧ t.bpNmi = false ∧ t.readWatch = [] ∧ t.writeWatch = [] ∧
        t.stepLog = [] ∧ t.apu = State.reset.apu ∧ t.ram = ram ∧ t.cartRam = cartRam ∧ t.prgRom = prgRom ∧ t.chr = chr ∧
        t.board = board ∧ t.params = params ∧
        t.pc = (busRead16 0xFFFC#16 { s with mapper := mapperOnReset board s.mapper }).1 ∧
        ∀ size, board = .nrom size → t.mapper = ⟨[], []⟩ ∧
          t.pc = wordOf (prgRom.read (prgBytes size - 3)) (prgRom.read (prgBytes size - 4))

/-- What the machine holds after reset, where the spec gives the value (10_state R45, 70_reset_and_hazards R330, R332,
R333, 50_apu R288); and the reset state is what `system_reset()` makes of the constructed machine, at the power-on values,
the empty memories, the parameters and the board the model chose (log entries 1, 2, 3, 4, 5), whatever P, PC and the APU
were. -/
def Obligations.ResetStateValues : Prop :=
  State.reset.p = 0x34#8 ∧ State.reset.paused = false ∧ State.reset.breakpoints = [] ∧ State.reset.bpNmi = false ∧
    State.reset.readWatch = [] ∧ State.reset.writeWatch = [] ∧ State.reset.stepLog = [] ∧
    (∀ j : BitVec 5, State.reset.apu.reg j = if j = 0x17 then 0x40#8 else 0#8) ∧
    State.reset.apu.frameIrq = false ∧ State.reset.apu.dmcIrq = false ∧ State.reset.apu.padStatus0 = 0#8 ∧
    State.reset.apu.padStatus1 = 0#8 ∧ State.reset.apu.padShift0 = 0#8 ∧ State.reset.apu.padShift1 = 0#8 ∧
    (∀ c : Pulse, c = State.reset.apu.p1 ∨ c = State.reset.apu.p2 →
      c.regs = ⟨0, 0, 0, 0⟩ ∧ c.stopped = true ∧ c.enabled = false ∧ c.length = 0 ∧
        c.env = { divider := 0, counter := 0, reset := false } ∧ c.sweepCounter = 0) ∧
    State.reset.apu.tri = { regs := ⟨0, 0, 0, 0⟩, stopped := true, enabled := false, length := 0 } ∧
    State.reset.apu.noi =
      { regs := ⟨0, 0, 0, 0⟩, stopped := true, enabled := false, length := 0,
        env := { divider := 0, counter := 0, reset := false } } ∧
    State.reset.apu.dmc = { regs := ⟨0, 0, 0, 0⟩, stopped := true, enabled := false, dmaLength := 0 } ∧
    State.reset.mapper = mapperOnReset State.reset.board (mapperInit State.reset.board) ∧
    State.reset.mapper = ⟨[], []⟩ ∧
    State.reset.pc = (busRead16 0xFFFC#16 State.reset).1 ∧
    ∀ (p : Byte) (pc : Addr) (u : Apu),
      hostMove .systemReset (State.construct (.nrom .k32) .reference [] [] [] [] 0 0 0 0 p pc u) = .next State.reset

/-- The reset state meets the invariant; its RAM lists nothing and its parameters are the reference ones by the model's
choice (log entries 1, 4). -/
def Obligations.ResetMeetsInvariant : Prop := State.reset.Inv = true

/-! ## Invariants of every step -/

/-- Every step keeps the invariant: memories in canonical form and within their address ranges, debug sets in their one
form, the step log within its capacity, the ranges of the APU's counters and the legal button masks (10_state R34, R35,
20_memory R53, 60_exceptions R316). The canonical forms, the cleared watchpoint note and the ranges of drawn counters are
the model's (log entries 1, 13, 15, 16, 21). -/
def Obligations.StepKeepsInvariant : Prop :=
  ∀ s t : State, s.Inv = true → step s = .next t → t.Inv = true

/-- No step changes PRG ROM, CHR, the board or the parameters (00_scope R7, 10_state R36, 20_memory R62, R53). That the
parameters, the board and CHR are launch data in State is the model's form (log entries 4, 5, 21). -/
def Obligations.LaunchDataNeverChanges : Prop :=
  ∀ s t : State, step s = .next t → t.prgRom = s.prgRom ∧ t.chr = s.chr ∧ t.board = s.board ∧ t.params = s.params

/-- Once bit 5 of P is set, only a loaded snapshot clears it: no instruction, interrupt entry or reset does
(10_state R26, 60_exceptions R303). -/
def Obligations.ReservedBitStaysSet : Prop :=
  ∀ s t : State, getFlag s.p .r = true → step s = .next t → (∀ l, s.script.head? ≠ some (.cpuLoad l)) →
    getFlag t.p .r = true

/-- An interrupt flag of the APU comes up in `onHblank` only (or is drawn by `apu.load`): `frame_irq` at the vblank
scanline with bit 6 of 0x4017 clear, `dmc_irq` where the DMC runs out with its interrupt enabled and its loop flag clear;
no instruction, interrupt entry or other host move sets one (10_state R33, 50_apu R252 to R255, R282). -/
def Obligations.InterruptFlagsComeFromHblank : Prop :=
  ∀ s t : State, step s = .next t → (∀ l, s.script.head? ≠ some (.apuLoad l)) →
    (s.apu.frameIrq = false → t.apu.frameIrq = true →
      s.script.head? = some (.onHblank s.params.vblankScanline) ∧ (s.apu.reg 0x17).getLsbD 6 = false) ∧
    (s.apu.dmcIrq = false → t.apu.dmcIrq = true →
      (∃ n, s.script.head? = some (.onHblank n)) ∧ s.apu.dmc.dmaLength = 1 ∧
        s.apu.dmc.regs.r0.getLsbD 7 = true ∧ s.apu.dmc.regs.r0.getLsbD 6 = false)

/-! ## Save and load -/

/-- `cpu.save()` returns the six registers and changes nothing; `cpu.load` sets the six registers of a well-formed
snapshot and nothing else, refuses every other with `CorruptState` and changes nothing; a saved state loads back exactly
(70_reset_and_hazards R336, R337). That the refusal is a result of a next state is the model's form (log entry 18). -/
def Obligations.CpuSaveAndLoad : Prop :=
  ∀ (s s' : State) (l : CpuSnapshot),
    (∃ m, hostMove .cpuSave s = .next { s with result := .cpuSnapshot m } ∧ snapshotOk m ∧
      hostMove (.cpuLoad m) s' =
        .next { s' with a := s.a, x := s.x, y := s.y, sp := s.sp, p := s.p, pc := s.pc, result := .nothing }) ∧
    (snapshotOk l → ∃ t, hostMove (.cpuLoad l) s = .next t ∧
      t = { s with a := t.a, x := t.x, y := t.y, sp := t.sp, p := t.p, pc := t.pc, result := .nothing } ∧
      (SnapField.a, (t.a.toNat : Int)) ∈ l ∧ (SnapField.x, (t.x.toNat : Int)) ∈ l ∧
      (SnapField.y, (t.y.toNat : Int)) ∈ l ∧ (SnapField.s, (t.sp.toNat : Int)) ∈ l ∧
      (SnapField.p, (t.p.toNat : Int)) ∈ l ∧ (SnapField.pc, (t.pc.toNat : Int)) ∈ l) ∧
    (¬ snapshotOk l → hostMove (.cpuLoad l) s = .next { s with result := .corruptState })

/-- `apu.save()` returns the 32 bytes of the mirror and changes nothing; `apu.load` of 32 bytes sets the mirror, leaves
the button masks and everything outside the APU but the draw counter, and refuses every other length with `CorruptState`
(70_reset_and_hazards R338, R339). Nothing is said of the drawn state (log entry 16);
that the refusal is a result of a next state is the model's form (log entry 18). -/
def Obligations.ApuSaveAndLoad : Prop :=
  ∀ (s : State) (m : List Byte),
    (∃ l : List Byte, hostMove .apuSave s = .next { s with result := .apuSnapshot l } ∧ l.length = 32 ∧
      ∀ j : BitVec 5, l[j.toNat]? = some (s.apu.reg j)) ∧
    (m.length = 32 → ∃ t, hostMove (.apuLoad m) s = .next t ∧ (∀ j : BitVec 5, m[j.toNat]? = some (t.apu.reg j)) ∧
      t.apu.padStatus0 = s.apu.padStatus0 ∧ t.apu.padStatus1 = s.apu.padStatus1 ∧
      t = { s with apu := t.apu, draws := t.draws, result := .nothing }) ∧
    (m.length ≠ 32 → hostMove (.apuLoad m) s = .next { s with result := .corruptState })

/-! ## The APU -/

/-- A read of 0x4015 composes the status byte and clears `frame_irq` alone; a write clears `dmc_irq`, sets the five
enabled bits, and primes or stops the DMC (50_apu R260, R262, R263, R281). -/
def Obligations.StatusRegister : Prop :=
  ∀ (s : State) (v : Byte),
    (∃ b : Byte, busRead 0x4015#16 s = (b, { s with apu := { s.apu with frameIrq := false } }) ∧
      b.getLsbD 0 = (!s.apu.p1.stopped && s.apu.p1.enabled) ∧ b.getLsbD 1 = (!s.apu.p2.stopped && s.apu.p2.enabled) ∧
      b.getLsbD 2 = (!s.apu.tri.stopped && s.apu.tri.enabled) ∧
      b.getLsbD 3 = (!s.apu.noi.stopped && s.apu.noi.enabled) ∧
      b.getLsbD 4 = (!s.apu.dmc.stopped && decide (0 < s.apu.dmc.dmaLength) && s.apu.dmc.enabled) ∧
      b.getLsbD 5 = false ∧ b.getLsbD 6 = s.apu.frameIrq ∧ b.getLsbD 7 = s.apu.dmcIrq) ∧
    busWrite 0x4015#16 v s =
      { s with
        apu :=
          { s.apu with
            regs := s.apu.regs.set 0x15 v
            dmcIrq := false
            p1 := { s.apu.p1 with enabled := v.getLsbD 0 }
            p2 := { s.apu.p2 with enabled := v.getLsbD 1 }
            tri := { s.apu.tri with enabled := v.getLsbD 2 }
            noi := { s.apu.noi with enabled := v.getLsbD 3 }
            dmc :=
              { s.apu.dmc with
                enabled := v.getLsbD 4
                dmaLength :=
                  if v.getLsbD 4 = false then 0
                  else if s.apu.dmc.dmaLength = 0 then (s.apu.dmc.regs.r3.toNat / 16 + 1) * 8
                  else s.apu.dmc.dmaLength
                stopped :=
                  if v.getLsbD 4 = false then true
                  else if s.apu.dmc.dmaLength = 0 then false
                  else s.apu.dmc.stopped } } }

/-- The game pads: `setStatus` removes opposing directions; the falling edge of bit 0 of 0x4016, and no other write there,
latches both masks; then the k-th read of a pad register gives bit k of its latch and 0 from the ninth on, and a read
shifts that register and changes nothing else
(50_apu R283 to R285). -/
def Obligations.GamePads : Prop :=
  ∀ (s : State) (mask v : Byte) (k : Nat),
    (∃ m : Byte, hostMove (.setStatus .pad0 mask) s =
        .next { s with apu := { s.apu with padStatus0 := m }, result := .nothing } ∧
      hostMove (.setStatus .pad1 mask) s =
        .next { s with apu := { s.apu with padStatus1 := m }, result := .nothing } ∧
      ∀ j, m.getLsbD j =
        (mask.getLsbD j && !(decide (j = 6 ∨ j = 7) && mask.getLsbD 6 && mask.getLsbD 7) &&
          !(decide (j = 4 ∨ j = 5) && mask.getLsbD 4 && mask.getLsbD 5))) ∧
    busWrite 0x4016#16 v s =
      { s with
        apu :=
          { s.apu with
            regs := s.apu.regs.set 0x16 v
            padShift0 :=
              if (s.apu.reg 0x16).getLsbD 0 = true ∧ v.getLsbD 0 = false then s.apu.padStatus0 else s.apu.padShift0
            padShift1 :=
              if (s.apu.reg 0x16).getLsbD 0 = true ∧ v.getLsbD 0 = false then s.apu.padStatus1
              else s.apu.padShift1 } } ∧
    (busRead 0x4016#16 (afterReads 0x4016#16 k s)).1 = (if s.apu.padShift0.getLsbD k = true then 1#8 else 0#8) ∧
    (busRead 0x4017#16 (afterReads 0x4017#16 k s)).1 = (if s.apu.padShift1.getLsbD k = true then 1#8 else 0#8) ∧
    (busRead 0x4016#16 s).2 = { s with apu := { s.apu with padShift0 := s.apu.padShift0 >>> 1 } } ∧
    (busRead 0x4017#16 s).2 = { s with apu := { s.apu with padShift1 := s.apu.padShift1 >>> 1 } }

/-- `onHblank(n)`: the DMC counter one less on every call, reloaded or stopped when it runs out; the channel ticks and
the frame interrupt at the vblank scanline only; one trigger event for each interrupt raised
(50_apu R252 to R255, R282). The list of events and the note `irqTrigger` are the model's form (log entry 11). -/
def Obligations.FrameSequencer : Prop :=
  ∀ (n : Nat) (s : State), ∃ t, hostMove (.onHblank n) s = .next t ∧
    t.apu.dmc =
      (if s.apu.dmc.dmaLength = 0 then s.apu.dmc
        else if s.apu.dmc.dmaLength = 1 then
          if s.apu.dmc.regs.r0.getLsbD 6 = true then
            { s.apu.dmc with dmaLength := (s.apu.dmc.regs.r3.toNat / 16 + 1) * 8 }
          else { s.apu.dmc with dmaLength := 0, stopped := true }
        else { s.apu.dmc with dmaLength := s.apu.dmc.dmaLength - 1 }) ∧
    (t.apu.dmcIrq = true ↔ s.apu.dmcIrq = true ∨
      (s.apu.dmc.dmaLength = 1 ∧ s.apu.dmc.regs.r0.getLsbD 6 = false ∧ s.apu.dmc.regs.r0.getLsbD 7 = true)) ∧
    (t.apu.frameIrq = true ↔ s.apu.frameIrq = true ∨
      (n = s.params.vblankScanline ∧ (s.apu.reg 0x17).getLsbD 6 = false)) ∧
    t.apu.p1 = (if n = s.params.vblankScanline then s.apu.p1.tick else s.apu.p1) ∧
    t.apu.p2 = (if n = s.params.vblankScanline then s.apu.p2.tick else s.apu.p2) ∧
    t.apu.tri = (if n = s.params.vblankScanline then s.apu.tri.tick else s.apu.tri) ∧
    t.apu.noi = (if n = s.params.vblankScanline then s.apu.noi.tick else s.apu.noi) ∧
    t.apu.regs = s.apu.regs ∧ t.apu.padStatus0 = s.apu.padStatus0 ∧ t.apu.padStatus1 = s.apu.padStatus1 ∧
    t.apu.padShift0 = s.apu.padShift0 ∧ t.apu.padShift1 = s.apu.padShift1 ∧
    t.events =
      (if n = s.params.vblankScanline ∧ (s.apu.reg 0x17).getLsbD 6 = false then [Event.irqTrigger] else []) ++
      (if s.apu.dmc.dmaLength = 1 ∧ s.apu.dmc.regs.r0.getLsbD 6 = false ∧ s.apu.dmc.regs.r0.getLsbD 7 = true
        then [Event.irqTrigger] else []) ++ s.events ∧
    t.irqTrigger = (s.irqTrigger || decide (s.events.length < t.events.length)) ∧
    t = { s with apu := t.apu, events := t.events, irqTrigger := t.irqTrigger, result := .nothing }

/-- The tick of a channel: none of a stopped one; the length counter less 4 (noise: 1) unless halted, stopping the
channel at 0; the envelope; the sweep (50_apu R269 to R272, R275, R278). -/
def Obligations.ChannelTicks : Prop :=
  (∀ c : Pulse, c.stopped = true → c.tick = c) ∧ (∀ c : Triangle, c.stopped = true → c.tick = c) ∧
  (∀ c : Noise, c.stopped = true → c.tick = c) ∧
  (∀ c : Pulse, c.stopped = false →
    c.tick.length = (if c.regs.r0.getLsbD 5 = true then c.length else c.length - 4) ∧
    c.tick.env = c.env.step c.regs ∧ c.tick.enabled = c.enabled ∧ c.tick.regs.r0 = c.regs.r0 ∧
    c.tick.regs.r1 = c.regs.r1 ∧
    (c.regs.r1.getLsbD 7 = false →
      c.tick.stopped = decide (c.regs.r0.getLsbD 5 = false ∧ c.length ≤ 4) ∧ c.tick.regs = c.regs ∧
        c.tick.sweepCounter = c.sweepCounter) ∧
    (c.regs.r1.getLsbD 7 = true → c.sweepCounter + 2 < c.regs.r1.toNat / 16 % 8 + 1 →
      c.tick.stopped = decide (c.regs.r0.getLsbD 5 = false ∧ c.length ≤ 4) ∧ c.tick.regs = c.regs ∧
        c.tick.sweepCounter = c.sweepCounter + 2) ∧
    (c.regs.r1.getLsbD 7 = true → c.regs.r1.toNat / 16 % 8 + 1 ≤ c.sweepCounter + 2 →
      ∀ target : Int,
        target = (if c.regs.r1.getLsbD 3 = true
          then (c.regs.period : Int) - (c.regs.period / 2 ^ (c.regs.r1.toNat % 8) : Nat)
          else (c.regs.period : Int) + (c.regs.period / 2 ^ (c.regs.r1.toNat % 8) : Nat)) →
        c.tick.sweepCounter = 0 ∧
        (0x7FF < target ∨ target < 8 → c.tick.stopped = true ∧ c.tick.regs = c.regs) ∧
        (8 ≤ target → target ≤ 0x7FF →
          c.tick.stopped = decide (c.regs.r0.getLsbD 5 = false ∧ c.length ≤ 4) ∧
          (c.tick.regs.period : Int) = target ∧ c.tick.regs.r3.toNat / 8 = c.regs.r3.toNat / 8))) ∧
  (∀ c : Triangle, c.stopped = false →
    c.tick = { c with
      length := if c.regs.r0.getLsbD 7 = true then c.length else c.length - 4
      stopped := decide (c.regs.r0.getLsbD 7 = false ∧ c.length ≤ 4) }) ∧
  (∀ c : Noise, c.stopped = false →
    c.tick = { c with
      length := if c.regs.r0.getLsbD 5 = true then c.length else c.length - 1
      stopped := decide (c.regs.r0.getLsbD 5 = false ∧ c.length ≤ 1)
      env := c.env.step c.regs }) ∧
  ∀ (e : Envelope) (g : ChanRegs),
    (e.reset = true → e.step g = { divider := g.r0.toNat % 16, counter := 15, reset := false }) ∧
    (e.reset = false → 4 ≤ e.divider → e.step g = { e with divider := e.divider - 4 }) ∧
    (e.reset = false → e.divider < 4 → 0 < e.counter →
      e.step g = { e with divider := g.r0.toNat % 16, counter := e.counter - 1 }) ∧
    (e.reset = false → e.divider < 4 → e.counter = 0 →
      e.step g = { e with divider := g.r0.toNat % 16, counter := if g.r0.getLsbD 5 = true then 15 else 0 })

/-- What a bus write to a channel register does: each writes the channel's own byte; pulse and noise register 0 arm the
channel and load the envelope unless constant volume is selected; their register 3 reloads the length and schedules the
envelope reset; triangle register 3 loads the length from register 0 and arms; every other write is the store only
(50_apu R256, R266, R274, R277, R280, R287). -/
def Obligations.ChannelWrites : Prop :=
  ∀ (t : Vector Byte 32) (v : Byte),
    (∀ c : Pulse,
      c.write t 0 v =
        { c with
          regs := { c.regs with r0 := v }
          stopped := false
          env := if v.getLsbD 4 = true then c.env
            else { c.env with divider := v.toNat % 16, counter := v.toNat % 16 } } ∧
      c.write t 1 v = { c with regs := { c.regs with r1 := v } } ∧
      c.write t 2 v = { c with regs := { c.regs with r2 := v } } ∧
      (∃ n, c.write t 3 v =
          { c with regs := { c.regs with r3 := v }, length := n, env := { c.env with reset := true } } ∧
        (v.toNat / 8 = 0 → n = 0x0A) ∧
        ∀ k : Fin 32, 0 < k.val → v.toNat / 8 = k.val → n = t[k].toNat)) ∧
    (∀ c : Noise,
      c.write t 0 v =
        { c with
          regs := { c.regs with r0 := v }
          stopped := false
          env := if v.getLsbD 4 = true then c.env
            else { c.env with divider := v.toNat % 16, counter := v.toNat % 16 } } ∧
      c.write t 1 v = { c with regs := { c.regs with r1 := v } } ∧
      c.write t 2 v = { c with regs := { c.regs with r2 := v } } ∧
      (∃ n, c.write t 3 v =
          { c with regs := { c.regs with r3 := v }, length := n, env := { c.env with reset := true } } ∧
        (v.toNat / 8 = 0 → n = 0x0A) ∧
        ∀ k : Fin 32, 0 < k.val → v.toNat / 8 = k.val → n = t[k].toNat)) ∧
    (∀ c : Triangle,
      c.write 0 v = { c with regs := { c.regs with r0 := v } } ∧
      c.write 1 v = { c with regs := { c.regs with r1 := v } } ∧
      c.write 2 v = { c with regs := { c.regs with r2 := v } } ∧
      c.write 3 v =
        { c with regs := { c.regs with r3 := v }, length := c.regs.r0.toNat % 128, stopped := false }) ∧
    (∀ c : Dmc,
      c.write 0 v = { c with regs := { c.regs with r0 := v } } ∧
      c.write 1 v = { c with regs := { c.regs with r1 := v } } ∧
      c.write 2 v = { c with regs := { c.regs with r2 := v } } ∧
      c.write 3 v = { c with regs := { c.regs with r3 := v } }) ∧
    ∀ (s : State) (k : Nat) (r : BitVec 2), k < 5 →
      busWrite (BitVec.ofNat 16 (0x4000 + 4 * k + r.toNat)) v s =
        { s with
          apu :=
            { s.apu.setReg (BitVec.ofNat 5 (4 * k + r.toNat)) v with
              p1 := if k = 0 then s.apu.p1.write s.params.lengthTable r v else s.apu.p1
              p2 := if k = 1 then s.apu.p2.write s.params.lengthTable r v else s.apu.p2
              tri := if k = 2 then s.apu.tri.write r v else s.apu.tri
              noi := if k = 3 then s.apu.noi.write s.params.lengthTable r v else s.apu.noi
              dmc := if k = 4 then s.apu.dmc.write r v else s.apu.dmc } }

/-- The derived volume of a channel lies between 0 and 1 and is 0 when the channel is stopped or disabled; a pulse,
triangle or noise frequency is the clock over the divisor times the period plus one, the noise period being the table's
entry; the DMC frequency is a function of its rate index; a pulse duty ratio is the table's entry and every other one 0.5
(50_apu R273, R276, R279, R282). That the values are exact ratios, and that the noise divisor and the DMC frequency are
free, is the model's choice (log entry 20). -/
def Obligations.AudioDerivedValues : Prop :=
  (∀ c : Pulse, c.bounded = true → 0 ≤ c.volume ∧ c.volume ≤ 1) ∧
  (∀ c : Noise, c.bounded = true → 0 ≤ c.volume ∧ c.volume ≤ 1) ∧
  (∀ c : Pulse, (c.stopped = true ∨ c.enabled = false → c.volume = 0) ∧
    (c.stopped = false → c.enabled = true → c.regs.r0.getLsbD 4 = true →
      c.volume * 15 = ((c.regs.r0.toNat % 16 : Nat) : Rat)) ∧
    (c.stopped = false → c.enabled = true → c.regs.r0.getLsbD 4 = false → c.volume * 15 = (c.env.counter : Rat))) ∧
  (∀ c : Noise, (c.stopped = true ∨ c.enabled = false → c.volume = 0) ∧
    (c.stopped = false → c.enabled = true → c.regs.r0.getLsbD 4 = true →
      c.volume * 15 = ((c.regs.r0.toNat % 16 : Nat) : Rat)) ∧
    (c.stopped = false → c.enabled = true → c.regs.r0.getLsbD 4 = false → c.volume * 15 = (c.env.counter : Rat))) ∧
  (∀ c : Triangle, c.volume = if c.stopped = true ∨ c.enabled = false then 0 else 1) ∧
  (∀ c : Dmc, c.volume = if c.stopped = true ∨ c.dmaLength = 0 ∨ c.enabled = false then 0 else 1) ∧
  ∀ (p : Params) (c : Pulse) (d : Triangle),
    (0 < p.freqDivisorPulse → c.frequency p * ((p.freqDivisorPulse * (c.regs.period + 1) : Nat) : Rat) = p.cpuClockHz) ∧
    (0 < p.freqDivisorTriangle →
      d.frequency p * ((p.freqDivisorTriangle * (d.regs.period + 1) : Nat) : Rat) = p.cpuClockHz) ∧
    (∀ k : Fin 4, c.regs.r0.toNat / 64 = k.val →
      c.dutyRatio p = ((p.dutyTable[k]).num : Rat) / ((p.dutyTable[k]).den : Rat)) ∧
    (∀ (e : Noise) (k : Fin 16), e.regs.r2.toNat % 16 = k.val →
      e.frequency p = (p.cpuClockHz : Rat) / ((Config.freqDivisorNoise * (p.noisePeriodTable[k] + 1) : Nat) : Rat)) ∧
    (∀ f : Dmc, f.frequency = Config.dmcFrequency (f.regs.r0.toNat % 16)) ∧
    ∀ (e : Noise) (f : Dmc), d.dutyRatio * 2 = 1 ∧ e.dutyRatio * 2 = 1 ∧ f.dutyRatio * 2 = 1

end Slice0Statements
end

