-- ==== Sys2Proof/Laws/Memory.lean ====
section
/-! SUPPORT. Read after write, and that every memory and set operation keeps the canonical form. -/

namespace Sys2Proof.Machine

theorem Memory.read_put_same (a : Nat) (v : Byte) (m : Memory) (h : ∀ b, b ≤ a → Memory.read m b = unlistedByte) :
    (Memory.put a v m).read a = v := by
  unfold Memory.put
  split
  · rename_i hv; rw [h a (Nat.le_refl a), hv]
  · simp [Memory.read]

theorem Memory.read_put_other (a b : Nat) (v : Byte) (m : Memory) (h : b ≠ a) :
    (Memory.put a v m).read b = m.read b := by
  unfold Memory.put
  split
  · rfl
  · simp [Memory.read, h]

/-- Below its first listed address a canonical memory reads as unlisted. -/
theorem Memory.read_of_lt (m : Memory) (lo a : Nat) (h : m.wfFrom lo = true) (ha : a < lo) :
    m.read a = unlistedByte := by
  induction m generalizing lo with
  | nil => rfl
  | cons c rest ih =>
    obtain ⟨b, w⟩ := c
    simp only [Memory.wfFrom, Bool.and_eq_true, decide_eq_true_eq] at h
    have hne : a ≠ b := by omega
    simp [Memory.read, hne, ih (b + 1) h.2 (by omega)]

theorem Memory.wfFrom_mono (m : Memory) (lo lo' : Nat) (h : m.wfFrom lo = true) (hl : lo' ≤ lo) :
    m.wfFrom lo' = true := by
  cases m with
  | nil => rfl
  | cons c rest =>
    obtain ⟨b, w⟩ := c
    simp only [Memory.wfFrom, Bool.and_eq_true, decide_eq_true_eq] at h ⊢
    exact ⟨⟨by omega, h.1.2⟩, h.2⟩

theorem Memory.wfFrom_put (a lo : Nat) (v : Byte) (m : Memory) (ha : lo ≤ a) (h : m.wfFrom (a + 1) = true) :
    (Memory.put a v m).wfFrom lo = true := by
  unfold Memory.put
  split
  · exact Memory.wfFrom_mono m _ _ h (by omega)
  · rename_i hv; simp [Memory.wfFrom, ha, hv, h]

theorem Memory.wfFrom_write (m : Memory) (lo a : Nat) (v : Byte) (h : m.wfFrom lo = true) (ha : lo ≤ a) :
    (m.write a v).wfFrom lo = true := by
  induction m generalizing lo with
  | nil => exact Memory.wfFrom_put a lo v [] ha rfl
  | cons c rest ih =>
    obtain ⟨b, w⟩ := c
    simp only [Memory.wfFrom, Bool.and_eq_true, decide_eq_true_eq] at h
    simp only [Memory.write]
    split
    · exact Memory.wfFrom_put a lo v _ ha (by
        simp only [Memory.wfFrom, Bool.and_eq_true, decide_eq_true_eq]
        exact ⟨⟨by omega, h.1.2⟩, h.2⟩)
    · split
      · rename_i hab; subst hab; exact Memory.wfFrom_put a lo v _ ha h.2
      · simp only [Memory.wfFrom, Bool.and_eq_true, decide_eq_true_eq]
        exact ⟨h.1, ih (b + 1) h.2 (by omega)⟩

/-- A write keeps the canonical form. -/
theorem Memory.wf_write (m : Memory) (a : Nat) (v : Byte) (h : m.wf = true) : (m.write a v).wf = true :=
  Memory.wfFrom_write m 0 a v h (Nat.zero_le a)

theorem Memory.below_put (n a : Nat) (v : Byte) (m : Memory) (ha : a < n) (h : m.below n = true) :
    (Memory.put a v m).below n = true := by
  unfold Memory.put
  split
  · exact h
  · simp only [Memory.below, List.all_cons, Bool.and_eq_true, decide_eq_true_eq]
    exact ⟨ha, h⟩

/-- A write below `n` keeps every listed address below `n`. -/
theorem Memory.below_write (n : Nat) (m : Memory) (a : Nat) (v : Byte) (ha : a < n) (h : m.below n = true) :
    (m.write a v).below n = true := by
  induction m with
  | nil => exact Memory.below_put n a v [] ha rfl
  | cons c rest ih =>
    obtain ⟨b, w⟩ := c
    have h' := h
    simp only [Memory.below, List.all_cons, Bool.and_eq_true, decide_eq_true_eq] at h'
    simp only [Memory.write]
    split
    · exact Memory.below_put n a v _ ha h
    · split
      · exact Memory.below_put n a v _ ha h'.2
      · simp only [Memory.below, List.all_cons, Bool.and_eq_true, decide_eq_true_eq]
        exact ⟨h'.1, ih h'.2⟩

theorem Memory.read_write_of_wfFrom (m : Memory) (lo a : Nat) (v : Byte) (h : m.wfFrom lo = true) :
    (m.write a v).read a = v := by
  induction m generalizing lo with
  | nil => exact Memory.read_put_same a v [] (fun _ _ => rfl)
  | cons c rest ih =>
    obtain ⟨b, w⟩ := c
    simp only [Memory.wfFrom, Bool.and_eq_true, decide_eq_true_eq] at h
    simp only [Memory.write]
    split
    · refine Memory.read_put_same a v _ (fun x hx => ?_)
      refine Memory.read_of_lt ((b, w) :: rest) b x ?_ (by omega)
      simp only [Memory.wfFrom, Bool.and_eq_true, decide_eq_true_eq]
      exact ⟨⟨Nat.le_refl b, h.1.2⟩, h.2⟩
    · split
      · rename_i hab; subst hab
        exact Memory.read_put_same a v _ (fun x hx => Memory.read_of_lt rest (a + 1) x h.2 (by omega))
      · rename_i hab
        simp only [Memory.read, hab, if_false]
        exact ih (b + 1) h.2

/-- A read after a write to the same address gives the value written. -/
theorem Memory.read_write_same (m : Memory) (a : Nat) (v : Byte) (h : m.wf = true) : (m.write a v).read a = v :=
  Memory.read_write_of_wfFrom m 0 a v h

/-- A write leaves every other address alone. -/
theorem Memory.read_write_other (m : Memory) (a b : Nat) (v : Byte) (h : b ≠ a) : (m.write a v).read b = m.read b := by
  induction m with
  | nil => exact Memory.read_put_other a b v [] h
  | cons c rest ih =>
    obtain ⟨x, w⟩ := c
    simp only [Memory.write]
    split
    · exact Memory.read_put_other a b v _ h
    · split
      · rename_i hax; subst hax
        rw [Memory.read_put_other a b v rest h]
        simp [Memory.read, h]
      · simp only [Memory.read, ih]

theorem AddrSet.wfFrom_mono (s : List Nat) (lo lo' : Nat) (h : AddrSet.wfFrom lo s = true) (hl : lo' ≤ lo) :
    AddrSet.wfFrom lo' s = true := by
  cases s with
  | nil => rfl
  | cons b rest =>
    simp only [AddrSet.wfFrom, Bool.and_eq_true, decide_eq_true_eq] at h ⊢
    exact ⟨by omega, h.2⟩

theorem AddrSet.wfFrom_insert (s : List Nat) (lo a : Nat) (h : AddrSet.wfFrom lo s = true) (ha : lo ≤ a) :
    AddrSet.wfFrom lo (AddrSet.insert a s) = true := by
  induction s generalizing lo with
  | nil => simp [AddrSet.insert, AddrSet.wfFrom, ha]
  | cons b rest ih =>
    simp only [AddrSet.wfFrom, Bool.and_eq_true, decide_eq_true_eq] at h
    simp only [AddrSet.insert]
    split
    · simp only [AddrSet.wfFrom, Bool.and_eq_true, decide_eq_true_eq]
      exact ⟨ha, by omega, h.2⟩
    · split
      · simp only [AddrSet.wfFrom, Bool.and_eq_true, decide_eq_true_eq]
        exact h
      · simp only [AddrSet.wfFrom, Bool.and_eq_true, decide_eq_true_eq]
        exact ⟨h.1, ih (b + 1) h.2 (by omega)⟩

theorem AddrSet.wfFrom_erase (s : List Nat) (lo a : Nat) (h : AddrSet.wfFrom lo s = true) :
    AddrSet.wfFrom lo (AddrSet.erase a s) = true := by
  induction s generalizing lo with
  | nil => rfl
  | cons b rest ih =>
    simp only [AddrSet.wfFrom, Bool.and_eq_true, decide_eq_true_eq] at h
    simp only [AddrSet.erase]
    split
    · exact AddrSet.wfFrom_mono rest _ _ h.2 (by omega)
    · simp only [AddrSet.wfFrom, Bool.and_eq_true, decide_eq_true_eq]
      exact ⟨h.1, ih (b + 1) h.2⟩

/-- Inserting keeps a set in its one form. -/
theorem AddrSet.wf_insert (s : List Nat) (a : Nat) (h : AddrSet.wf s = true) : AddrSet.wf (AddrSet.insert a s) = true :=
  AddrSet.wfFrom_insert s 0 a h (Nat.zero_le a)

/-- Erasing keeps a set in its one form. -/
theorem AddrSet.wf_erase (s : List Nat) (a : Nat) (h : AddrSet.wf s = true) : AddrSet.wf (AddrSet.erase a s) = true :=
  AddrSet.wfFrom_erase s 0 a h

/-- Membership after inserting. -/
theorem AddrSet.mem_insert (s : List Nat) (a b : Nat) : b ∈ AddrSet.insert a s ↔ b = a ∨ b ∈ s := by
  induction s with
  | nil => simp [AddrSet.insert]
  | cons c rest ih =>
    simp only [AddrSet.insert]
    split
    · simp
    · split
      · rename_i h; subst h; simp
      · simp only [List.mem_cons, ih]; tauto

end Sys2Proof.Machine
end

