-- ==== Sys2Proof/Laws/State.lean ====
section
/-! SUPPORT. What each update of the state does to each field, one lemma per field per update. No later proof unfolds a
record update. -/

namespace Sys2Proof.Machine

@[simp] theorem State.setA_a (s : State) (v : Byte) : (s.setA v).a = v := rfl
@[simp] theorem State.setA_x (s : State) (v : Byte) : (s.setA v).x = s.x := rfl
@[simp] theorem State.setA_y (s : State) (v : Byte) : (s.setA v).y = s.y := rfl
@[simp] theorem State.setA_sp (s : State) (v : Byte) : (s.setA v).sp = s.sp := rfl
@[simp] theorem State.setA_p (s : State) (v : Byte) : (s.setA v).p = s.p := rfl
@[simp] theorem State.setA_pc (s : State) (v : Byte) : (s.setA v).pc = s.pc := rfl
@[simp] theorem State.setA_paused (s : State) (v : Byte) : (s.setA v).paused = s.paused := rfl
@[simp] theorem State.setA_pauseReason (s : State) (v : Byte) : (s.setA v).pauseReason = s.pauseReason := rfl
@[simp] theorem State.setA_breakpoints (s : State) (v : Byte) : (s.setA v).breakpoints = s.breakpoints := rfl
@[simp] theorem State.setA_bpNmi (s : State) (v : Byte) : (s.setA v).bpNmi = s.bpNmi := rfl
@[simp] theorem State.setA_readWatch (s : State) (v : Byte) : (s.setA v).readWatch = s.readWatch := rfl
@[simp] theorem State.setA_writeWatch (s : State) (v : Byte) : (s.setA v).writeWatch = s.writeWatch := rfl
@[simp] theorem State.setA_stepLog (s : State) (v : Byte) : (s.setA v).stepLog = s.stepLog := rfl
@[simp] theorem State.setA_ram (s : State) (v : Byte) : (s.setA v).ram = s.ram := rfl
@[simp] theorem State.setA_cartRam (s : State) (v : Byte) : (s.setA v).cartRam = s.cartRam := rfl
@[simp] theorem State.setA_prgRom (s : State) (v : Byte) : (s.setA v).prgRom = s.prgRom := rfl
@[simp] theorem State.setA_chr (s : State) (v : Byte) : (s.setA v).chr = s.chr := rfl
@[simp] theorem State.setA_board (s : State) (v : Byte) : (s.setA v).board = s.board := rfl
@[simp] theorem State.setA_mapper (s : State) (v : Byte) : (s.setA v).mapper = s.mapper := rfl
@[simp] theorem State.setA_apu (s : State) (v : Byte) : (s.setA v).apu = s.apu := rfl
@[simp] theorem State.setA_cycles (s : State) (v : Byte) : (s.setA v).cycles = s.cycles := rfl
@[simp] theorem State.setA_result (s : State) (v : Byte) : (s.setA v).result = s.result := rfl
@[simp] theorem State.setA_watchHit (s : State) (v : Byte) : (s.setA v).watchHit = s.watchHit := rfl
@[simp] theorem State.setA_events (s : State) (v : Byte) : (s.setA v).events = s.events := rfl
@[simp] theorem State.setA_irqTrigger (s : State) (v : Byte) : (s.setA v).irqTrigger = s.irqTrigger := rfl
@[simp] theorem State.setA_draws (s : State) (v : Byte) : (s.setA v).draws = s.draws := rfl
@[simp] theorem State.setA_script (s : State) (v : Byte) : (s.setA v).script = s.script := rfl
@[simp] theorem State.setA_params (s : State) (v : Byte) : (s.setA v).params = s.params := rfl

@[simp] theorem State.setX_a (s : State) (v : Byte) : (s.setX v).a = s.a := rfl
@[simp] theorem State.setX_x (s : State) (v : Byte) : (s.setX v).x = v := rfl
@[simp] theorem State.setX_y (s : State) (v : Byte) : (s.setX v).y = s.y := rfl
@[simp] theorem State.setX_sp (s : State) (v : Byte) : (s.setX v).sp = s.sp := rfl
@[simp] theorem State.setX_p (s : State) (v : Byte) : (s.setX v).p = s.p := rfl
@[simp] theorem State.setX_pc (s : State) (v : Byte) : (s.setX v).pc = s.pc := rfl
@[simp] theorem State.setX_paused (s : State) (v : Byte) : (s.setX v).paused = s.paused := rfl
@[simp] theorem State.setX_pauseReason (s : State) (v : Byte) : (s.setX v).pauseReason = s.pauseReason := rfl
@[simp] theorem State.setX_breakpoints (s : State) (v : Byte) : (s.setX v).breakpoints = s.breakpoints := rfl
@[simp] theorem State.setX_bpNmi (s : State) (v : Byte) : (s.setX v).bpNmi = s.bpNmi := rfl
@[simp] theorem State.setX_readWatch (s : State) (v : Byte) : (s.setX v).readWatch = s.readWatch := rfl
@[simp] theorem State.setX_writeWatch (s : State) (v : Byte) : (s.setX v).writeWatch = s.writeWatch := rfl
@[simp] theorem State.setX_stepLog (s : State) (v : Byte) : (s.setX v).stepLog = s.stepLog := rfl
@[simp] theorem State.setX_ram (s : State) (v : Byte) : (s.setX v).ram = s.ram := rfl
@[simp] theorem State.setX_cartRam (s : State) (v : Byte) : (s.setX v).cartRam = s.cartRam := rfl
@[simp] theorem State.setX_prgRom (s : State) (v : Byte) : (s.setX v).prgRom = s.prgRom := rfl
@[simp] theorem State.setX_chr (s : State) (v : Byte) : (s.setX v).chr = s.chr := rfl
@[simp] theorem State.setX_board (s : State) (v : Byte) : (s.setX v).board = s.board := rfl
@[simp] theorem State.setX_mapper (s : State) (v : Byte) : (s.setX v).mapper = s.mapper := rfl
@[simp] theorem State.setX_apu (s : State) (v : Byte) : (s.setX v).apu = s.apu := rfl
@[simp] theorem State.setX_cycles (s : State) (v : Byte) : (s.setX v).cycles = s.cycles := rfl
@[simp] theorem State.setX_result (s : State) (v : Byte) : (s.setX v).result = s.result := rfl
@[simp] theorem State.setX_watchHit (s : State) (v : Byte) : (s.setX v).watchHit = s.watchHit := rfl
@[simp] theorem State.setX_events (s : State) (v : Byte) : (s.setX v).events = s.events := rfl
@[simp] theorem State.setX_irqTrigger (s : State) (v : Byte) : (s.setX v).irqTrigger = s.irqTrigger := rfl
@[simp] theorem State.setX_draws (s : State) (v : Byte) : (s.setX v).draws = s.draws := rfl
@[simp] theorem State.setX_script (s : State) (v : Byte) : (s.setX v).script = s.script := rfl
@[simp] theorem State.setX_params (s : State) (v : Byte) : (s.setX v).params = s.params := rfl

@[simp] theorem State.setY_a (s : State) (v : Byte) : (s.setY v).a = s.a := rfl
@[simp] theorem State.setY_x (s : State) (v : Byte) : (s.setY v).x = s.x := rfl
@[simp] theorem State.setY_y (s : State) (v : Byte) : (s.setY v).y = v := rfl
@[simp] theorem State.setY_sp (s : State) (v : Byte) : (s.setY v).sp = s.sp := rfl
@[simp] theorem State.setY_p (s : State) (v : Byte) : (s.setY v).p = s.p := rfl
@[simp] theorem State.setY_pc (s : State) (v : Byte) : (s.setY v).pc = s.pc := rfl
@[simp] theorem State.setY_paused (s : State) (v : Byte) : (s.setY v).paused = s.paused := rfl
@[simp] theorem State.setY_pauseReason (s : State) (v : Byte) : (s.setY v).pauseReason = s.pauseReason := rfl
@[simp] theorem State.setY_breakpoints (s : State) (v : Byte) : (s.setY v).breakpoints = s.breakpoints := rfl
@[simp] theorem State.setY_bpNmi (s : State) (v : Byte) : (s.setY v).bpNmi = s.bpNmi := rfl
@[simp] theorem State.setY_readWatch (s : State) (v : Byte) : (s.setY v).readWatch = s.readWatch := rfl
@[simp] theorem State.setY_writeWatch (s : State) (v : Byte) : (s.setY v).writeWatch = s.writeWatch := rfl
@[simp] theorem State.setY_stepLog (s : State) (v : Byte) : (s.setY v).stepLog = s.stepLog := rfl
@[simp] theorem State.setY_ram (s : State) (v : Byte) : (s.setY v).ram = s.ram := rfl
@[simp] theorem State.setY_cartRam (s : State) (v : Byte) : (s.setY v).cartRam = s.cartRam := rfl
@[simp] theorem State.setY_prgRom (s : State) (v : Byte) : (s.setY v).prgRom = s.prgRom := rfl
@[simp] theorem State.setY_chr (s : State) (v : Byte) : (s.setY v).chr = s.chr := rfl
@[simp] theorem State.setY_board (s : State) (v : Byte) : (s.setY v).board = s.board := rfl
@[simp] theorem State.setY_mapper (s : State) (v : Byte) : (s.setY v).mapper = s.mapper := rfl
@[simp] theorem State.setY_apu (s : State) (v : Byte) : (s.setY v).apu = s.apu := rfl
@[simp] theorem State.setY_cycles (s : State) (v : Byte) : (s.setY v).cycles = s.cycles := rfl
@[simp] theorem State.setY_result (s : State) (v : Byte) : (s.setY v).result = s.result := rfl
@[simp] theorem State.setY_watchHit (s : State) (v : Byte) : (s.setY v).watchHit = s.watchHit := rfl
@[simp] theorem State.setY_events (s : State) (v : Byte) : (s.setY v).events = s.events := rfl
@[simp] theorem State.setY_irqTrigger (s : State) (v : Byte) : (s.setY v).irqTrigger = s.irqTrigger := rfl
@[simp] theorem State.setY_draws (s : State) (v : Byte) : (s.setY v).draws = s.draws := rfl
@[simp] theorem State.setY_script (s : State) (v : Byte) : (s.setY v).script = s.script := rfl
@[simp] theorem State.setY_params (s : State) (v : Byte) : (s.setY v).params = s.params := rfl

@[simp] theorem State.setSp_a (s : State) (v : Byte) : (s.setSp v).a = s.a := rfl
@[simp] theorem State.setSp_x (s : State) (v : Byte) : (s.setSp v).x = s.x := rfl
@[simp] theorem State.setSp_y (s : State) (v : Byte) : (s.setSp v).y = s.y := rfl
@[simp] theorem State.setSp_sp (s : State) (v : Byte) : (s.setSp v).sp = v := rfl
@[simp] theorem State.setSp_p (s : State) (v : Byte) : (s.setSp v).p = s.p := rfl
@[simp] theorem State.setSp_pc (s : State) (v : Byte) : (s.setSp v).pc = s.pc := rfl
@[simp] theorem State.setSp_paused (s : State) (v : Byte) : (s.setSp v).paused = s.paused := rfl
@[simp] theorem State.setSp_pauseReason (s : State) (v : Byte) : (s.setSp v).pauseReason = s.pauseReason := rfl
@[simp] theorem State.setSp_breakpoints (s : State) (v : Byte) : (s.setSp v).breakpoints = s.breakpoints := rfl
@[simp] theorem State.setSp_bpNmi (s : State) (v : Byte) : (s.setSp v).bpNmi = s.bpNmi := rfl
@[simp] theorem State.setSp_readWatch (s : State) (v : Byte) : (s.setSp v).readWatch = s.readWatch := rfl
@[simp] theorem State.setSp_writeWatch (s : State) (v : Byte) : (s.setSp v).writeWatch = s.writeWatch := rfl
@[simp] theorem State.setSp_stepLog (s : State) (v : Byte) : (s.setSp v).stepLog = s.stepLog := rfl
@[simp] theorem State.setSp_ram (s : State) (v : Byte) : (s.setSp v).ram = s.ram := rfl
@[simp] theorem State.setSp_cartRam (s : State) (v : Byte) : (s.setSp v).cartRam = s.cartRam := rfl
@[simp] theorem State.setSp_prgRom (s : State) (v : Byte) : (s.setSp v).prgRom = s.prgRom := rfl
@[simp] theorem State.setSp_chr (s : State) (v : Byte) : (s.setSp v).chr = s.chr := rfl
@[simp] theorem State.setSp_board (s : State) (v : Byte) : (s.setSp v).board = s.board := rfl
@[simp] theorem State.setSp_mapper (s : State) (v : Byte) : (s.setSp v).mapper = s.mapper := rfl
@[simp] theorem State.setSp_apu (s : State) (v : Byte) : (s.setSp v).apu = s.apu := rfl
@[simp] theorem State.setSp_cycles (s : State) (v : Byte) : (s.setSp v).cycles = s.cycles := rfl
@[simp] theorem State.setSp_result (s : State) (v : Byte) : (s.setSp v).result = s.result := rfl
@[simp] theorem State.setSp_watchHit (s : State) (v : Byte) : (s.setSp v).watchHit = s.watchHit := rfl
@[simp] theorem State.setSp_events (s : State) (v : Byte) : (s.setSp v).events = s.events := rfl
@[simp] theorem State.setSp_irqTrigger (s : State) (v : Byte) : (s.setSp v).irqTrigger = s.irqTrigger := rfl
@[simp] theorem State.setSp_draws (s : State) (v : Byte) : (s.setSp v).draws = s.draws := rfl
@[simp] theorem State.setSp_script (s : State) (v : Byte) : (s.setSp v).script = s.script := rfl
@[simp] theorem State.setSp_params (s : State) (v : Byte) : (s.setSp v).params = s.params := rfl

@[simp] theorem State.setP_a (s : State) (v : Byte) : (s.setP v).a = s.a := rfl
@[simp] theorem State.setP_x (s : State) (v : Byte) : (s.setP v).x = s.x := rfl
@[simp] theorem State.setP_y (s : State) (v : Byte) : (s.setP v).y = s.y := rfl
@[simp] theorem State.setP_sp (s : State) (v : Byte) : (s.setP v).sp = s.sp := rfl
@[simp] theorem State.setP_p (s : State) (v : Byte) : (s.setP v).p = v := rfl
@[simp] theorem State.setP_pc (s : State) (v : Byte) : (s.setP v).pc = s.pc := rfl
@[simp] theorem State.setP_paused (s : State) (v : Byte) : (s.setP v).paused = s.paused := rfl
@[simp] theorem State.setP_pauseReason (s : State) (v : Byte) : (s.setP v).pauseReason = s.pauseReason := rfl
@[simp] theorem State.setP_breakpoints (s : State) (v : Byte) : (s.setP v).breakpoints = s.breakpoints := rfl
@[simp] theorem State.setP_bpNmi (s : State) (v : Byte) : (s.setP v).bpNmi = s.bpNmi := rfl
@[simp] theorem State.setP_readWatch (s : State) (v : Byte) : (s.setP v).readWatch = s.readWatch := rfl
@[simp] theorem State.setP_writeWatch (s : State) (v : Byte) : (s.setP v).writeWatch = s.writeWatch := rfl
@[simp] theorem State.setP_stepLog (s : State) (v : Byte) : (s.setP v).stepLog = s.stepLog := rfl
@[simp] theorem State.setP_ram (s : State) (v : Byte) : (s.setP v).ram = s.ram := rfl
@[simp] theorem State.setP_cartRam (s : State) (v : Byte) : (s.setP v).cartRam = s.cartRam := rfl
@[simp] theorem State.setP_prgRom (s : State) (v : Byte) : (s.setP v).prgRom = s.prgRom := rfl
@[simp] theorem State.setP_chr (s : State) (v : Byte) : (s.setP v).chr = s.chr := rfl
@[simp] theorem State.setP_board (s : State) (v : Byte) : (s.setP v).board = s.board := rfl
@[simp] theorem State.setP_mapper (s : State) (v : Byte) : (s.setP v).mapper = s.mapper := rfl
@[simp] theorem State.setP_apu (s : State) (v : Byte) : (s.setP v).apu = s.apu := rfl
@[simp] theorem State.setP_cycles (s : State) (v : Byte) : (s.setP v).cycles = s.cycles := rfl
@[simp] theorem State.setP_result (s : State) (v : Byte) : (s.setP v).result = s.result := rfl
@[simp] theorem State.setP_watchHit (s : State) (v : Byte) : (s.setP v).watchHit = s.watchHit := rfl
@[simp] theorem State.setP_events (s : State) (v : Byte) : (s.setP v).events = s.events := rfl
@[simp] theorem State.setP_irqTrigger (s : State) (v : Byte) : (s.setP v).irqTrigger = s.irqTrigger := rfl
@[simp] theorem State.setP_draws (s : State) (v : Byte) : (s.setP v).draws = s.draws := rfl
@[simp] theorem State.setP_script (s : State) (v : Byte) : (s.setP v).script = s.script := rfl
@[simp] theorem State.setP_params (s : State) (v : Byte) : (s.setP v).params = s.params := rfl

@[simp] theorem State.setPc_a (s : State) (v : Addr) : (s.setPc v).a = s.a := rfl
@[simp] theorem State.setPc_x (s : State) (v : Addr) : (s.setPc v).x = s.x := rfl
@[simp] theorem State.setPc_y (s : State) (v : Addr) : (s.setPc v).y = s.y := rfl
@[simp] theorem State.setPc_sp (s : State) (v : Addr) : (s.setPc v).sp = s.sp := rfl
@[simp] theorem State.setPc_p (s : State) (v : Addr) : (s.setPc v).p = s.p := rfl
@[simp] theorem State.setPc_pc (s : State) (v : Addr) : (s.setPc v).pc = v := rfl
@[simp] theorem State.setPc_paused (s : State) (v : Addr) : (s.setPc v).paused = s.paused := rfl
@[simp] theorem State.setPc_pauseReason (s : State) (v : Addr) : (s.setPc v).pauseReason = s.pauseReason := rfl
@[simp] theorem State.setPc_breakpoints (s : State) (v : Addr) : (s.setPc v).breakpoints = s.breakpoints := rfl
@[simp] theorem State.setPc_bpNmi (s : State) (v : Addr) : (s.setPc v).bpNmi = s.bpNmi := rfl
@[simp] theorem State.setPc_readWatch (s : State) (v : Addr) : (s.setPc v).readWatch = s.readWatch := rfl
@[simp] theorem State.setPc_writeWatch (s : State) (v : Addr) : (s.setPc v).writeWatch = s.writeWatch := rfl
@[simp] theorem State.setPc_stepLog (s : State) (v : Addr) : (s.setPc v).stepLog = s.stepLog := rfl
@[simp] theorem State.setPc_ram (s : State) (v : Addr) : (s.setPc v).ram = s.ram := rfl
@[simp] theorem State.setPc_cartRam (s : State) (v : Addr) : (s.setPc v).cartRam = s.cartRam := rfl
@[simp] theorem State.setPc_prgRom (s : State) (v : Addr) : (s.setPc v).prgRom = s.prgRom := rfl
@[simp] theorem State.setPc_chr (s : State) (v : Addr) : (s.setPc v).chr = s.chr := rfl
@[simp] theorem State.setPc_board (s : State) (v : Addr) : (s.setPc v).board = s.board := rfl
@[simp] theorem State.setPc_mapper (s : State) (v : Addr) : (s.setPc v).mapper = s.mapper := rfl
@[simp] theorem State.setPc_apu (s : State) (v : Addr) : (s.setPc v).apu = s.apu := rfl
@[simp] theorem State.setPc_cycles (s : State) (v : Addr) : (s.setPc v).cycles = s.cycles := rfl
@[simp] theorem State.setPc_result (s : State) (v : Addr) : (s.setPc v).result = s.result := rfl
@[simp] theorem State.setPc_watchHit (s : State) (v : Addr) : (s.setPc v).watchHit = s.watchHit := rfl
@[simp] theorem State.setPc_events (s : State) (v : Addr) : (s.setPc v).events = s.events := rfl
@[simp] theorem State.setPc_irqTrigger (s : State) (v : Addr) : (s.setPc v).irqTrigger = s.irqTrigger := rfl
@[simp] theorem State.setPc_draws (s : State) (v : Addr) : (s.setPc v).draws = s.draws := rfl
@[simp] theorem State.setPc_script (s : State) (v : Addr) : (s.setPc v).script = s.script := rfl
@[simp] theorem State.setPc_params (s : State) (v : Addr) : (s.setPc v).params = s.params := rfl

@[simp] theorem State.setFlag_a (s : State) (f : Flag) (b : Bool) : (s.setFlag f b).a = s.a := rfl
@[simp] theorem State.setFlag_x (s : State) (f : Flag) (b : Bool) : (s.setFlag f b).x = s.x := rfl
@[simp] theorem State.setFlag_y (s : State) (f : Flag) (b : Bool) : (s.setFlag f b).y = s.y := rfl
@[simp] theorem State.setFlag_sp (s : State) (f : Flag) (b : Bool) : (s.setFlag f b).sp = s.sp := rfl
@[simp] theorem State.setFlag_p (s : State) (f : Flag) (b : Bool) : (s.setFlag f b).p = Machine.setFlag s.p f b := rfl
@[simp] theorem State.setFlag_pc (s : State) (f : Flag) (b : Bool) : (s.setFlag f b).pc = s.pc := rfl
@[simp] theorem State.setFlag_paused (s : State) (f : Flag) (b : Bool) : (s.setFlag f b).paused = s.paused := rfl
@[simp] theorem State.setFlag_pauseReason (s : State) (f : Flag) (b : Bool) : (s.setFlag f b).pauseReason = s.pauseReason := rfl
@[simp] theorem State.setFlag_breakpoints (s : State) (f : Flag) (b : Bool) : (s.setFlag f b).breakpoints = s.breakpoints := rfl
@[simp] theorem State.setFlag_bpNmi (s : State) (f : Flag) (b : Bool) : (s.setFlag f b).bpNmi = s.bpNmi := rfl
@[simp] theorem State.setFlag_readWatch (s : State) (f : Flag) (b : Bool) : (s.setFlag f b).readWatch = s.readWatch := rfl
@[simp] theorem State.setFlag_writeWatch (s : State) (f : Flag) (b : Bool) : (s.setFlag f b).writeWatch = s.writeWatch := rfl
@[simp] theorem State.setFlag_stepLog (s : State) (f : Flag) (b : Bool) : (s.setFlag f b).stepLog = s.stepLog := rfl
@[simp] theorem State.setFlag_ram (s : State) (f : Flag) (b : Bool) : (s.setFlag f b).ram = s.ram := rfl
@[simp] theorem State.setFlag_cartRam (s : State) (f : Flag) (b : Bool) : (s.setFlag f b).cartRam = s.cartRam := rfl
@[simp] theorem State.setFlag_prgRom (s : State) (f : Flag) (b : Bool) : (s.setFlag f b).prgRom = s.prgRom := rfl
@[simp] theorem State.setFlag_chr (s : State) (f : Flag) (b : Bool) : (s.setFlag f b).chr = s.chr := rfl
@[simp] theorem State.setFlag_board (s : State) (f : Flag) (b : Bool) : (s.setFlag f b).board = s.board := rfl
@[simp] theorem State.setFlag_mapper (s : State) (f : Flag) (b : Bool) : (s.setFlag f b).mapper = s.mapper := rfl
@[simp] theorem State.setFlag_apu (s : State) (f : Flag) (b : Bool) : (s.setFlag f b).apu = s.apu := rfl
@[simp] theorem State.setFlag_cycles (s : State) (f : Flag) (b : Bool) : (s.setFlag f b).cycles = s.cycles := rfl
@[simp] theorem State.setFlag_result (s : State) (f : Flag) (b : Bool) : (s.setFlag f b).result = s.result := rfl
@[simp] theorem State.setFlag_watchHit (s : State) (f : Flag) (b : Bool) : (s.setFlag f b).watchHit = s.watchHit := rfl
@[simp] theorem State.setFlag_events (s : State) (f : Flag) (b : Bool) : (s.setFlag f b).events = s.events := rfl
@[simp] theorem State.setFlag_irqTrigger (s : State) (f : Flag) (b : Bool) : (s.setFlag f b).irqTrigger = s.irqTrigger := rfl
@[simp] theorem State.setFlag_draws (s : State) (f : Flag) (b : Bool) : (s.setFlag f b).draws = s.draws := rfl
@[simp] theorem State.setFlag_script (s : State) (f : Flag) (b : Bool) : (s.setFlag f b).script = s.script := rfl
@[simp] theorem State.setFlag_params (s : State) (f : Flag) (b : Bool) : (s.setFlag f b).params = s.params := rfl

@[simp] theorem State.setNZ_a (s : State) (v : Byte) : (s.setNZ v).a = s.a := rfl
@[simp] theorem State.setNZ_x (s : State) (v : Byte) : (s.setNZ v).x = s.x := rfl
@[simp] theorem State.setNZ_y (s : State) (v : Byte) : (s.setNZ v).y = s.y := rfl
@[simp] theorem State.setNZ_sp (s : State) (v : Byte) : (s.setNZ v).sp = s.sp := rfl
@[simp] theorem State.setNZ_p (s : State) (v : Byte) : (s.setNZ v).p = Machine.setNZ s.p v := rfl
@[simp] theorem State.setNZ_pc (s : State) (v : Byte) : (s.setNZ v).pc = s.pc := rfl
@[simp] theorem State.setNZ_paused (s : State) (v : Byte) : (s.setNZ v).paused = s.paused := rfl
@[simp] theorem State.setNZ_pauseReason (s : State) (v : Byte) : (s.setNZ v).pauseReason = s.pauseReason := rfl
@[simp] theorem State.setNZ_breakpoints (s : State) (v : Byte) : (s.setNZ v).breakpoints = s.breakpoints := rfl
@[simp] theorem State.setNZ_bpNmi (s : State) (v : Byte) : (s.setNZ v).bpNmi = s.bpNmi := rfl
@[simp] theorem State.setNZ_readWatch (s : State) (v : Byte) : (s.setNZ v).readWatch = s.readWatch := rfl
@[simp] theorem State.setNZ_writeWatch (s : State) (v : Byte) : (s.setNZ v).writeWatch = s.writeWatch := rfl
@[simp] theorem State.setNZ_stepLog (s : State) (v : Byte) : (s.setNZ v).stepLog = s.stepLog := rfl
@[simp] theorem State.setNZ_ram (s : State) (v : Byte) : (s.setNZ v).ram = s.ram := rfl
@[simp] theorem State.setNZ_cartRam (s : State) (v : Byte) : (s.setNZ v).cartRam = s.cartRam := rfl
@[simp] theorem State.setNZ_prgRom (s : State) (v : Byte) : (s.setNZ v).prgRom = s.prgRom := rfl
@[simp] theorem State.setNZ_chr (s : State) (v : Byte) : (s.setNZ v).chr = s.chr := rfl
@[simp] theorem State.setNZ_board (s : State) (v : Byte) : (s.setNZ v).board = s.board := rfl
@[simp] theorem State.setNZ_mapper (s : State) (v : Byte) : (s.setNZ v).mapper = s.mapper := rfl
@[simp] theorem State.setNZ_apu (s : State) (v : Byte) : (s.setNZ v).apu = s.apu := rfl
@[simp] theorem State.setNZ_cycles (s : State) (v : Byte) : (s.setNZ v).cycles = s.cycles := rfl
@[simp] theorem State.setNZ_result (s : State) (v : Byte) : (s.setNZ v).result = s.result := rfl
@[simp] theorem State.setNZ_watchHit (s : State) (v : Byte) : (s.setNZ v).watchHit = s.watchHit := rfl
@[simp] theorem State.setNZ_events (s : State) (v : Byte) : (s.setNZ v).events = s.events := rfl
@[simp] theorem State.setNZ_irqTrigger (s : State) (v : Byte) : (s.setNZ v).irqTrigger = s.irqTrigger := rfl
@[simp] theorem State.setNZ_draws (s : State) (v : Byte) : (s.setNZ v).draws = s.draws := rfl
@[simp] theorem State.setNZ_script (s : State) (v : Byte) : (s.setNZ v).script = s.script := rfl
@[simp] theorem State.setNZ_params (s : State) (v : Byte) : (s.setNZ v).params = s.params := rfl

@[simp] theorem State.charge_a (s : State) (n : Nat) : (s.charge n).a = s.a := rfl
@[simp] theorem State.charge_x (s : State) (n : Nat) : (s.charge n).x = s.x := rfl
@[simp] theorem State.charge_y (s : State) (n : Nat) : (s.charge n).y = s.y := rfl
@[simp] theorem State.charge_sp (s : State) (n : Nat) : (s.charge n).sp = s.sp := rfl
@[simp] theorem State.charge_p (s : State) (n : Nat) : (s.charge n).p = s.p := rfl
@[simp] theorem State.charge_pc (s : State) (n : Nat) : (s.charge n).pc = s.pc := rfl
@[simp] theorem State.charge_paused (s : State) (n : Nat) : (s.charge n).paused = s.paused := rfl
@[simp] theorem State.charge_pauseReason (s : State) (n : Nat) : (s.charge n).pauseReason = s.pauseReason := rfl
@[simp] theorem State.charge_breakpoints (s : State) (n : Nat) : (s.charge n).breakpoints = s.breakpoints := rfl
@[simp] theorem State.charge_bpNmi (s : State) (n : Nat) : (s.charge n).bpNmi = s.bpNmi := rfl
@[simp] theorem State.charge_readWatch (s : State) (n : Nat) : (s.charge n).readWatch = s.readWatch := rfl
@[simp] theorem State.charge_writeWatch (s : State) (n : Nat) : (s.charge n).writeWatch = s.writeWatch := rfl
@[simp] theorem State.charge_stepLog (s : State) (n : Nat) : (s.charge n).stepLog = s.stepLog := rfl
@[simp] theorem State.charge_ram (s : State) (n : Nat) : (s.charge n).ram = s.ram := rfl
@[simp] theorem State.charge_cartRam (s : State) (n : Nat) : (s.charge n).cartRam = s.cartRam := rfl
@[simp] theorem State.charge_prgRom (s : State) (n : Nat) : (s.charge n).prgRom = s.prgRom := rfl
@[simp] theorem State.charge_chr (s : State) (n : Nat) : (s.charge n).chr = s.chr := rfl
@[simp] theorem State.charge_board (s : State) (n : Nat) : (s.charge n).board = s.board := rfl
@[simp] theorem State.charge_mapper (s : State) (n : Nat) : (s.charge n).mapper = s.mapper := rfl
@[simp] theorem State.charge_apu (s : State) (n : Nat) : (s.charge n).apu = s.apu := rfl
@[simp] theorem State.charge_cycles (s : State) (n : Nat) : (s.charge n).cycles = s.cycles + n := rfl
@[simp] theorem State.charge_result (s : State) (n : Nat) : (s.charge n).result = .cycles n := rfl
@[simp] theorem State.charge_watchHit (s : State) (n : Nat) : (s.charge n).watchHit = s.watchHit := rfl
@[simp] theorem State.charge_events (s : State) (n : Nat) : (s.charge n).events = s.events := rfl
@[simp] theorem State.charge_irqTrigger (s : State) (n : Nat) : (s.charge n).irqTrigger = s.irqTrigger := rfl
@[simp] theorem State.charge_draws (s : State) (n : Nat) : (s.charge n).draws = s.draws := rfl
@[simp] theorem State.charge_script (s : State) (n : Nat) : (s.charge n).script = s.script := rfl
@[simp] theorem State.charge_params (s : State) (n : Nat) : (s.charge n).params = s.params := rfl

@[simp] theorem State.emit_a (s : State) (e : Event) : (s.emit e).a = s.a := rfl
@[simp] theorem State.emit_x (s : State) (e : Event) : (s.emit e).x = s.x := rfl
@[simp] theorem State.emit_y (s : State) (e : Event) : (s.emit e).y = s.y := rfl
@[simp] theorem State.emit_sp (s : State) (e : Event) : (s.emit e).sp = s.sp := rfl
@[simp] theorem State.emit_p (s : State) (e : Event) : (s.emit e).p = s.p := rfl
@[simp] theorem State.emit_pc (s : State) (e : Event) : (s.emit e).pc = s.pc := rfl
@[simp] theorem State.emit_paused (s : State) (e : Event) : (s.emit e).paused = s.paused := rfl
@[simp] theorem State.emit_pauseReason (s : State) (e : Event) : (s.emit e).pauseReason = s.pauseReason := rfl
@[simp] theorem State.emit_breakpoints (s : State) (e : Event) : (s.emit e).breakpoints = s.breakpoints := rfl
@[simp] theorem State.emit_bpNmi (s : State) (e : Event) : (s.emit e).bpNmi = s.bpNmi := rfl
@[simp] theorem State.emit_readWatch (s : State) (e : Event) : (s.emit e).readWatch = s.readWatch := rfl
@[simp] theorem State.emit_writeWatch (s : State) (e : Event) : (s.emit e).writeWatch = s.writeWatch := rfl
@[simp] theorem State.emit_stepLog (s : State) (e : Event) : (s.emit e).stepLog = s.stepLog := rfl
@[simp] theorem State.emit_ram (s : State) (e : Event) : (s.emit e).ram = s.ram := rfl
@[simp] theorem State.emit_cartRam (s : State) (e : Event) : (s.emit e).cartRam = s.cartRam := rfl
@[simp] theorem State.emit_prgRom (s : State) (e : Event) : (s.emit e).prgRom = s.prgRom := rfl
@[simp] theorem State.emit_chr (s : State) (e : Event) : (s.emit e).chr = s.chr := rfl
@[simp] theorem State.emit_board (s : State) (e : Event) : (s.emit e).board = s.board := rfl
@[simp] theorem State.emit_mapper (s : State) (e : Event) : (s.emit e).mapper = s.mapper := rfl
@[simp] theorem State.emit_apu (s : State) (e : Event) : (s.emit e).apu = s.apu := rfl
@[simp] theorem State.emit_cycles (s : State) (e : Event) : (s.emit e).cycles = s.cycles := rfl
@[simp] theorem State.emit_result (s : State) (e : Event) : (s.emit e).result = s.result := rfl
@[simp] theorem State.emit_watchHit (s : State) (e : Event) : (s.emit e).watchHit = s.watchHit := rfl
@[simp] theorem State.emit_events (s : State) (e : Event) : (s.emit e).events = e :: s.events := rfl
@[simp] theorem State.emit_irqTrigger (s : State) (e : Event) : (s.emit e).irqTrigger = s.irqTrigger := rfl
@[simp] theorem State.emit_draws (s : State) (e : Event) : (s.emit e).draws = s.draws := rfl
@[simp] theorem State.emit_script (s : State) (e : Event) : (s.emit e).script = s.script := rfl
@[simp] theorem State.emit_params (s : State) (e : Event) : (s.emit e).params = s.params := rfl

@[simp] theorem State.triggerIrq_a (s : State) : (s.triggerIrq).a = s.a := rfl
@[simp] theorem State.triggerIrq_x (s : State) : (s.triggerIrq).x = s.x := rfl
@[simp] theorem State.triggerIrq_y (s : State) : (s.triggerIrq).y = s.y := rfl
@[simp] theorem State.triggerIrq_sp (s : State) : (s.triggerIrq).sp = s.sp := rfl
@[simp] theorem State.triggerIrq_p (s : State) : (s.triggerIrq).p = s.p := rfl
@[simp] theorem State.triggerIrq_pc (s : State) : (s.triggerIrq).pc = s.pc := rfl
@[simp] theorem State.triggerIrq_paused (s : State) : (s.triggerIrq).paused = s.paused := rfl
@[simp] theorem State.triggerIrq_pauseReason (s : State) : (s.triggerIrq).pauseReason = s.pauseReason := rfl
@[simp] theorem State.triggerIrq_breakpoints (s : State) : (s.triggerIrq).breakpoints = s.breakpoints := rfl
@[simp] theorem State.triggerIrq_bpNmi (s : State) : (s.triggerIrq).bpNmi = s.bpNmi := rfl
@[simp] theorem State.triggerIrq_readWatch (s : State) : (s.triggerIrq).readWatch = s.readWatch := rfl
@[simp] theorem State.triggerIrq_writeWatch (s : State) : (s.triggerIrq).writeWatch = s.writeWatch := rfl
@[simp] theorem State.triggerIrq_stepLog (s : State) : (s.triggerIrq).stepLog = s.stepLog := rfl
@[simp] theorem State.triggerIrq_ram (s : State) : (s.triggerIrq).ram = s.ram := rfl
@[simp] theorem State.triggerIrq_cartRam (s : State) : (s.triggerIrq).cartRam = s.cartRam := rfl
@[simp] theorem State.triggerIrq_prgRom (s : State) : (s.triggerIrq).prgRom = s.prgRom := rfl
@[simp] theorem State.triggerIrq_chr (s : State) : (s.triggerIrq).chr = s.chr := rfl
@[simp] theorem State.triggerIrq_board (s : State) : (s.triggerIrq).board = s.board := rfl
@[simp] theorem State.triggerIrq_mapper (s : State) : (s.triggerIrq).mapper = s.mapper := rfl
@[simp] theorem State.triggerIrq_apu (s : State) : (s.triggerIrq).apu = s.apu := rfl
@[simp] theorem State.triggerIrq_cycles (s : State) : (s.triggerIrq).cycles = s.cycles := rfl
@[simp] theorem State.triggerIrq_result (s : State) : (s.triggerIrq).result = s.result := rfl
@[simp] theorem State.triggerIrq_watchHit (s : State) : (s.triggerIrq).watchHit = s.watchHit := rfl
@[simp] theorem State.triggerIrq_events (s : State) : (s.triggerIrq).events = .irqTrigger :: s.events := rfl
@[simp] theorem State.triggerIrq_irqTrigger (s : State) : (s.triggerIrq).irqTrigger = true := rfl
@[simp] theorem State.triggerIrq_draws (s : State) : (s.triggerIrq).draws = s.draws := rfl
@[simp] theorem State.triggerIrq_script (s : State) : (s.triggerIrq).script = s.script := rfl
@[simp] theorem State.triggerIrq_params (s : State) : (s.triggerIrq).params = s.params := rfl

@[simp] theorem State.triggerIf_a (s : State) (b : Bool) : (s.triggerIf b).a = s.a := by cases b <;> rfl
@[simp] theorem State.triggerIf_x (s : State) (b : Bool) : (s.triggerIf b).x = s.x := by cases b <;> rfl
@[simp] theorem State.triggerIf_y (s : State) (b : Bool) : (s.triggerIf b).y = s.y := by cases b <;> rfl
@[simp] theorem State.triggerIf_sp (s : State) (b : Bool) : (s.triggerIf b).sp = s.sp := by cases b <;> rfl
@[simp] theorem State.triggerIf_p (s : State) (b : Bool) : (s.triggerIf b).p = s.p := by cases b <;> rfl
@[simp] theorem State.triggerIf_pc (s : State) (b : Bool) : (s.triggerIf b).pc = s.pc := by cases b <;> rfl
@[simp] theorem State.triggerIf_paused (s : State) (b : Bool) : (s.triggerIf b).paused = s.paused := by cases b <;> rfl
@[simp] theorem State.triggerIf_pauseReason (s : State) (b : Bool) : (s.triggerIf b).pauseReason = s.pauseReason := by cases b <;> rfl
@[simp] theorem State.triggerIf_breakpoints (s : State) (b : Bool) : (s.triggerIf b).breakpoints = s.breakpoints := by cases b <;> rfl
@[simp] theorem State.triggerIf_bpNmi (s : State) (b : Bool) : (s.triggerIf b).bpNmi = s.bpNmi := by cases b <;> rfl
@[simp] theorem State.triggerIf_readWatch (s : State) (b : Bool) : (s.triggerIf b).readWatch = s.readWatch := by cases b <;> rfl
@[simp] theorem State.triggerIf_writeWatch (s : State) (b : Bool) : (s.triggerIf b).writeWatch = s.writeWatch := by cases b <;> rfl
@[simp] theorem State.triggerIf_stepLog (s : State) (b : Bool) : (s.triggerIf b).stepLog = s.stepLog := by cases b <;> rfl
@[simp] theorem State.triggerIf_ram (s : State) (b : Bool) : (s.triggerIf b).ram = s.ram := by cases b <;> rfl
@[simp] theorem State.triggerIf_cartRam (s : State) (b : Bool) : (s.triggerIf b).cartRam = s.cartRam := by cases b <;> rfl
@[simp] theorem State.triggerIf_prgRom (s : State) (b : Bool) : (s.triggerIf b).prgRom = s.prgRom := by cases b <;> rfl
@[simp] theorem State.triggerIf_chr (s : State) (b : Bool) : (s.triggerIf b).chr = s.chr := by cases b <;> rfl
@[simp] theorem State.triggerIf_board (s : State) (b : Bool) : (s.triggerIf b).board = s.board := by cases b <;> rfl
@[simp] theorem State.triggerIf_mapper (s : State) (b : Bool) : (s.triggerIf b).mapper = s.mapper := by cases b <;> rfl
@[simp] theorem State.triggerIf_apu (s : State) (b : Bool) : (s.triggerIf b).apu = s.apu := by cases b <;> rfl
@[simp] theorem State.triggerIf_cycles (s : State) (b : Bool) : (s.triggerIf b).cycles = s.cycles := by cases b <;> rfl
@[simp] theorem State.triggerIf_result (s : State) (b : Bool) : (s.triggerIf b).result = s.result := by cases b <;> rfl
@[simp] theorem State.triggerIf_watchHit (s : State) (b : Bool) : (s.triggerIf b).watchHit = s.watchHit := by cases b <;> rfl
@[simp] theorem State.triggerIf_events (s : State) (b : Bool) : (s.triggerIf b).events = if b then .irqTrigger :: s.events else s.events := by cases b <;> rfl
@[simp] theorem State.triggerIf_irqTrigger (s : State) (b : Bool) : (s.triggerIf b).irqTrigger = (b || s.irqTrigger) := by cases b <;> rfl
@[simp] theorem State.triggerIf_draws (s : State) (b : Bool) : (s.triggerIf b).draws = s.draws := by cases b <;> rfl
@[simp] theorem State.triggerIf_script (s : State) (b : Bool) : (s.triggerIf b).script = s.script := by cases b <;> rfl
@[simp] theorem State.triggerIf_params (s : State) (b : Bool) : (s.triggerIf b).params = s.params := by cases b <;> rfl

@[simp] theorem State.setMapper_a (s : State) (m : MapperState) : (s.setMapper m).a = s.a := by simp [State.setMapper]
@[simp] theorem State.setMapper_x (s : State) (m : MapperState) : (s.setMapper m).x = s.x := by simp [State.setMapper]
@[simp] theorem State.setMapper_y (s : State) (m : MapperState) : (s.setMapper m).y = s.y := by simp [State.setMapper]
@[simp] theorem State.setMapper_sp (s : State) (m : MapperState) : (s.setMapper m).sp = s.sp := by simp [State.setMapper]
@[simp] theorem State.setMapper_p (s : State) (m : MapperState) : (s.setMapper m).p = s.p := by simp [State.setMapper]
@[simp] theorem State.setMapper_pc (s : State) (m : MapperState) : (s.setMapper m).pc = s.pc := by simp [State.setMapper]
@[simp] theorem State.setMapper_paused (s : State) (m : MapperState) : (s.setMapper m).paused = s.paused := by simp [State.setMapper]
@[simp] theorem State.setMapper_pauseReason (s : State) (m : MapperState) : (s.setMapper m).pauseReason = s.pauseReason := by simp [State.setMapper]
@[simp] theorem State.setMapper_breakpoints (s : State) (m : MapperState) : (s.setMapper m).breakpoints = s.breakpoints := by simp [State.setMapper]
@[simp] theorem State.setMapper_bpNmi (s : State) (m : MapperState) : (s.setMapper m).bpNmi = s.bpNmi := by simp [State.setMapper]
@[simp] theorem State.setMapper_readWatch (s : State) (m : MapperState) : (s.setMapper m).readWatch = s.readWatch := by simp [State.setMapper]
@[simp] theorem State.setMapper_writeWatch (s : State) (m : MapperState) : (s.setMapper m).writeWatch = s.writeWatch := by simp [State.setMapper]
@[simp] theorem State.setMapper_stepLog (s : State) (m : MapperState) : (s.setMapper m).stepLog = s.stepLog := by simp [State.setMapper]
@[simp] theorem State.setMapper_ram (s : State) (m : MapperState) : (s.setMapper m).ram = s.ram := by simp [State.setMapper]
@[simp] theorem State.setMapper_cartRam (s : State) (m : MapperState) : (s.setMapper m).cartRam = s.cartRam := by simp [State.setMapper]
@[simp] theorem State.setMapper_prgRom (s : State) (m : MapperState) : (s.setMapper m).prgRom = s.prgRom := by simp [State.setMapper]
@[simp] theorem State.setMapper_chr (s : State) (m : MapperState) : (s.setMapper m).chr = s.chr := by simp [State.setMapper]
@[simp] theorem State.setMapper_board (s : State) (m : MapperState) : (s.setMapper m).board = s.board := by simp [State.setMapper]
@[simp] theorem State.setMapper_mapper (s : State) (m : MapperState) : (s.setMapper m).mapper = m := by simp [State.setMapper]
@[simp] theorem State.setMapper_apu (s : State) (m : MapperState) : (s.setMapper m).apu = s.apu := by simp [State.setMapper]
@[simp] theorem State.setMapper_cycles (s : State) (m : MapperState) : (s.setMapper m).cycles = s.cycles := by simp [State.setMapper]
@[simp] theorem State.setMapper_result (s : State) (m : MapperState) : (s.setMapper m).result = s.result := by simp [State.setMapper]
@[simp] theorem State.setMapper_watchHit (s : State) (m : MapperState) : (s.setMapper m).watchHit = s.watchHit := by simp [State.setMapper]
@[simp] theorem State.setMapper_draws (s : State) (m : MapperState) : (s.setMapper m).draws = s.draws := by simp [State.setMapper]
@[simp] theorem State.setMapper_script (s : State) (m : MapperState) : (s.setMapper m).script = s.script := by simp [State.setMapper]
@[simp] theorem State.setMapper_params (s : State) (m : MapperState) : (s.setMapper m).params = s.params := by simp [State.setMapper]

@[simp] theorem State.pause_a (s : State) (r : PauseReason) : (s.pause r).a = s.a := rfl
@[simp] theorem State.pause_x (s : State) (r : PauseReason) : (s.pause r).x = s.x := rfl
@[simp] theorem State.pause_y (s : State) (r : PauseReason) : (s.pause r).y = s.y := rfl
@[simp] theorem State.pause_sp (s : State) (r : PauseReason) : (s.pause r).sp = s.sp := rfl
@[simp] theorem State.pause_p (s : State) (r : PauseReason) : (s.pause r).p = s.p := rfl
@[simp] theorem State.pause_pc (s : State) (r : PauseReason) : (s.pause r).pc = s.pc := rfl
@[simp] theorem State.pause_paused (s : State) (r : PauseReason) : (s.pause r).paused = true := rfl
@[simp] theorem State.pause_pauseReason (s : State) (r : PauseReason) : (s.pause r).pauseReason = some r := rfl
@[simp] theorem State.pause_breakpoints (s : State) (r : PauseReason) : (s.pause r).breakpoints = s.breakpoints := rfl
@[simp] theorem State.pause_bpNmi (s : State) (r : PauseReason) : (s.pause r).bpNmi = s.bpNmi := rfl
@[simp] theorem State.pause_readWatch (s : State) (r : PauseReason) : (s.pause r).readWatch = s.readWatch := rfl
@[simp] theorem State.pause_writeWatch (s : State) (r : PauseReason) : (s.pause r).writeWatch = s.writeWatch := rfl
@[simp] theorem State.pause_stepLog (s : State) (r : PauseReason) : (s.pause r).stepLog = s.stepLog := rfl
@[simp] theorem State.pause_ram (s : State) (r : PauseReason) : (s.pause r).ram = s.ram := rfl
@[simp] theorem State.pause_cartRam (s : State) (r : PauseReason) : (s.pause r).cartRam = s.cartRam := rfl
@[simp] theorem State.pause_prgRom (s : State) (r : PauseReason) : (s.pause r).prgRom = s.prgRom := rfl
@[simp] theorem State.pause_chr (s : State) (r : PauseReason) : (s.pause r).chr = s.chr := rfl
@[simp] theorem State.pause_board (s : State) (r : PauseReason) : (s.pause r).board = s.board := rfl
@[simp] theorem State.pause_mapper (s : State) (r : PauseReason) : (s.pause r).mapper = s.mapper := rfl
@[simp] theorem State.pause_apu (s : State) (r : PauseReason) : (s.pause r).apu = s.apu := rfl
@[simp] theorem State.pause_cycles (s : State) (r : PauseReason) : (s.pause r).cycles = s.cycles := rfl
@[simp] theorem State.pause_result (s : State) (r : PauseReason) : (s.pause r).result = s.result := rfl
@[simp] theorem State.pause_watchHit (s : State) (r : PauseReason) : (s.pause r).watchHit = s.watchHit := rfl
@[simp] theorem State.pause_events (s : State) (r : PauseReason) : (s.pause r).events = s.events := rfl
@[simp] theorem State.pause_irqTrigger (s : State) (r : PauseReason) : (s.pause r).irqTrigger = s.irqTrigger := rfl
@[simp] theorem State.pause_draws (s : State) (r : PauseReason) : (s.pause r).draws = s.draws := rfl
@[simp] theorem State.pause_script (s : State) (r : PauseReason) : (s.pause r).script = s.script := rfl
@[simp] theorem State.pause_params (s : State) (r : PauseReason) : (s.pause r).params = s.params := rfl

@[simp] theorem State.returns_a (s : State) (r : HostResult) : (s.returns r).a = s.a := rfl
@[simp] theorem State.returns_x (s : State) (r : HostResult) : (s.returns r).x = s.x := rfl
@[simp] theorem State.returns_y (s : State) (r : HostResult) : (s.returns r).y = s.y := rfl
@[simp] theorem State.returns_sp (s : State) (r : HostResult) : (s.returns r).sp = s.sp := rfl
@[simp] theorem State.returns_p (s : State) (r : HostResult) : (s.returns r).p = s.p := rfl
@[simp] theorem State.returns_pc (s : State) (r : HostResult) : (s.returns r).pc = s.pc := rfl
@[simp] theorem State.returns_paused (s : State) (r : HostResult) : (s.returns r).paused = s.paused := rfl
@[simp] theorem State.returns_pauseReason (s : State) (r : HostResult) : (s.returns r).pauseReason = s.pauseReason := rfl
@[simp] theorem State.returns_breakpoints (s : State) (r : HostResult) : (s.returns r).breakpoints = s.breakpoints := rfl
@[simp] theorem State.returns_bpNmi (s : State) (r : HostResult) : (s.returns r).bpNmi = s.bpNmi := rfl
@[simp] theorem State.returns_readWatch (s : State) (r : HostResult) : (s.returns r).readWatch = s.readWatch := rfl
@[simp] theorem State.returns_writeWatch (s : State) (r : HostResult) : (s.returns r).writeWatch = s.writeWatch := rfl
@[simp] theorem State.returns_stepLog (s : State) (r : HostResult) : (s.returns r).stepLog = s.stepLog := rfl
@[simp] theorem State.returns_ram (s : State) (r : HostResult) : (s.returns r).ram = s.ram := rfl
@[simp] theorem State.returns_cartRam (s : State) (r : HostResult) : (s.returns r).cartRam = s.cartRam := rfl
@[simp] theorem State.returns_prgRom (s : State) (r : HostResult) : (s.returns r).prgRom = s.prgRom := rfl
@[simp] theorem State.returns_chr (s : State) (r : HostResult) : (s.returns r).chr = s.chr := rfl
@[simp] theorem State.returns_board (s : State) (r : HostResult) : (s.returns r).board = s.board := rfl
@[simp] theorem State.returns_mapper (s : State) (r : HostResult) : (s.returns r).mapper = s.mapper := rfl
@[simp] theorem State.returns_apu (s : State) (r : HostResult) : (s.returns r).apu = s.apu := rfl
@[simp] theorem State.returns_cycles (s : State) (r : HostResult) : (s.returns r).cycles = s.cycles := rfl
@[simp] theorem State.returns_result (s : State) (r : HostResult) : (s.returns r).result = r := rfl
@[simp] theorem State.returns_watchHit (s : State) (r : HostResult) : (s.returns r).watchHit = s.watchHit := rfl
@[simp] theorem State.returns_events (s : State) (r : HostResult) : (s.returns r).events = s.events := rfl
@[simp] theorem State.returns_irqTrigger (s : State) (r : HostResult) : (s.returns r).irqTrigger = s.irqTrigger := rfl
@[simp] theorem State.returns_draws (s : State) (r : HostResult) : (s.returns r).draws = s.draws := rfl
@[simp] theorem State.returns_script (s : State) (r : HostResult) : (s.returns r).script = s.script := rfl
@[simp] theorem State.returns_params (s : State) (r : HostResult) : (s.returns r).params = s.params := rfl

@[simp] theorem State.noteAccess_a (s : State) (a : Addr) (k : Access) : (s.noteAccess a k).a = s.a := by unfold State.noteAccess; split <;> rfl
@[simp] theorem State.noteAccess_x (s : State) (a : Addr) (k : Access) : (s.noteAccess a k).x = s.x := by unfold State.noteAccess; split <;> rfl
@[simp] theorem State.noteAccess_y (s : State) (a : Addr) (k : Access) : (s.noteAccess a k).y = s.y := by unfold State.noteAccess; split <;> rfl
@[simp] theorem State.noteAccess_sp (s : State) (a : Addr) (k : Access) : (s.noteAccess a k).sp = s.sp := by unfold State.noteAccess; split <;> rfl
@[simp] theorem State.noteAccess_p (s : State) (a : Addr) (k : Access) : (s.noteAccess a k).p = s.p := by unfold State.noteAccess; split <;> rfl
@[simp] theorem State.noteAccess_pc (s : State) (a : Addr) (k : Access) : (s.noteAccess a k).pc = s.pc := by unfold State.noteAccess; split <;> rfl
@[simp] theorem State.noteAccess_paused (s : State) (a : Addr) (k : Access) : (s.noteAccess a k).paused = s.paused := by unfold State.noteAccess; split <;> rfl
@[simp] theorem State.noteAccess_pauseReason (s : State) (a : Addr) (k : Access) : (s.noteAccess a k).pauseReason = s.pauseReason := by unfold State.noteAccess; split <;> rfl
@[simp] theorem State.noteAccess_breakpoints (s : State) (a : Addr) (k : Access) : (s.noteAccess a k).breakpoints = s.breakpoints := by unfold State.noteAccess; split <;> rfl
@[simp] theorem State.noteAccess_bpNmi (s : State) (a : Addr) (k : Access) : (s.noteAccess a k).bpNmi = s.bpNmi := by unfold State.noteAccess; split <;> rfl
@[simp] theorem State.noteAccess_readWatch (s : State) (a : Addr) (k : Access) : (s.noteAccess a k).readWatch = s.readWatch := by unfold State.noteAccess; split <;> rfl
@[simp] theorem State.noteAccess_writeWatch (s : State) (a : Addr) (k : Access) : (s.noteAccess a k).writeWatch = s.writeWatch := by unfold State.noteAccess; split <;> rfl
@[simp] theorem State.noteAccess_stepLog (s : State) (a : Addr) (k : Access) : (s.noteAccess a k).stepLog = s.stepLog := by unfold State.noteAccess; split <;> rfl
@[simp] theorem State.noteAccess_ram (s : State) (a : Addr) (k : Access) : (s.noteAccess a k).ram = s.ram := by unfold State.noteAccess; split <;> rfl
@[simp] theorem State.noteAccess_cartRam (s : State) (a : Addr) (k : Access) : (s.noteAccess a k).cartRam = s.cartRam := by unfold State.noteAccess; split <;> rfl
@[simp] theorem State.noteAccess_prgRom (s : State) (a : Addr) (k : Access) : (s.noteAccess a k).prgRom = s.prgRom := by unfold State.noteAccess; split <;> rfl
@[simp] theorem State.noteAccess_chr (s : State) (a : Addr) (k : Access) : (s.noteAccess a k).chr = s.chr := by unfold State.noteAccess; split <;> rfl
@[simp] theorem State.noteAccess_board (s : State) (a : Addr) (k : Access) : (s.noteAccess a k).board = s.board := by unfold State.noteAccess; split <;> rfl
@[simp] theorem State.noteAccess_mapper (s : State) (a : Addr) (k : Access) : (s.noteAccess a k).mapper = s.mapper := by unfold State.noteAccess; split <;> rfl
@[simp] theorem State.noteAccess_apu (s : State) (a : Addr) (k : Access) : (s.noteAccess a k).apu = s.apu := by unfold State.noteAccess; split <;> rfl
@[simp] theorem State.noteAccess_cycles (s : State) (a : Addr) (k : Access) : (s.noteAccess a k).cycles = s.cycles := by unfold State.noteAccess; split <;> rfl
@[simp] theorem State.noteAccess_result (s : State) (a : Addr) (k : Access) : (s.noteAccess a k).result = s.result := by unfold State.noteAccess; split <;> rfl
@[simp] theorem State.noteAccess_events (s : State) (a : Addr) (k : Access) : (s.noteAccess a k).events = s.events := by unfold State.noteAccess; split <;> rfl
@[simp] theorem State.noteAccess_irqTrigger (s : State) (a : Addr) (k : Access) : (s.noteAccess a k).irqTrigger = s.irqTrigger := by unfold State.noteAccess; split <;> rfl
@[simp] theorem State.noteAccess_draws (s : State) (a : Addr) (k : Access) : (s.noteAccess a k).draws = s.draws := by unfold State.noteAccess; split <;> rfl
@[simp] theorem State.noteAccess_script (s : State) (a : Addr) (k : Access) : (s.noteAccess a k).script = s.script := by unfold State.noteAccess; split <;> rfl
@[simp] theorem State.noteAccess_params (s : State) (a : Addr) (k : Access) : (s.noteAccess a k).params = s.params := by unfold State.noteAccess; split <;> rfl

@[simp] theorem State.advance_a (s : State) (o : Operand) : (s.advance o).a = s.a := rfl
@[simp] theorem State.advance_x (s : State) (o : Operand) : (s.advance o).x = s.x := rfl
@[simp] theorem State.advance_y (s : State) (o : Operand) : (s.advance o).y = s.y := rfl
@[simp] theorem State.advance_sp (s : State) (o : Operand) : (s.advance o).sp = s.sp := rfl
@[simp] theorem State.advance_p (s : State) (o : Operand) : (s.advance o).p = s.p := rfl
@[simp] theorem State.advance_pc (s : State) (o : Operand) : (s.advance o).pc = s.pc + BitVec.ofNat 16 o.length := rfl
@[simp] theorem State.advance_paused (s : State) (o : Operand) : (s.advance o).paused = s.paused := rfl
@[simp] theorem State.advance_pauseReason (s : State) (o : Operand) : (s.advance o).pauseReason = s.pauseReason := rfl
@[simp] theorem State.advance_breakpoints (s : State) (o : Operand) : (s.advance o).breakpoints = s.breakpoints := rfl
@[simp] theorem State.advance_bpNmi (s : State) (o : Operand) : (s.advance o).bpNmi = s.bpNmi := rfl
@[simp] theorem State.advance_readWatch (s : State) (o : Operand) : (s.advance o).readWatch = s.readWatch := rfl
@[simp] theorem State.advance_writeWatch (s : State) (o : Operand) : (s.advance o).writeWatch = s.writeWatch := rfl
@[simp] theorem State.advance_stepLog (s : State) (o : Operand) : (s.advance o).stepLog = s.stepLog := rfl
@[simp] theorem State.advance_ram (s : State) (o : Operand) : (s.advance o).ram = s.ram := rfl
@[simp] theorem State.advance_cartRam (s : State) (o : Operand) : (s.advance o).cartRam = s.cartRam := rfl
@[simp] theorem State.advance_prgRom (s : State) (o : Operand) : (s.advance o).prgRom = s.prgRom := rfl
@[simp] theorem State.advance_chr (s : State) (o : Operand) : (s.advance o).chr = s.chr := rfl
@[simp] theorem State.advance_board (s : State) (o : Operand) : (s.advance o).board = s.board := rfl
@[simp] theorem State.advance_mapper (s : State) (o : Operand) : (s.advance o).mapper = s.mapper := rfl
@[simp] theorem State.advance_apu (s : State) (o : Operand) : (s.advance o).apu = s.apu := rfl
@[simp] theorem State.advance_cycles (s : State) (o : Operand) : (s.advance o).cycles = s.cycles := rfl
@[simp] theorem State.advance_result (s : State) (o : Operand) : (s.advance o).result = s.result := rfl
@[simp] theorem State.advance_watchHit (s : State) (o : Operand) : (s.advance o).watchHit = s.watchHit := rfl
@[simp] theorem State.advance_events (s : State) (o : Operand) : (s.advance o).events = s.events := rfl
@[simp] theorem State.advance_irqTrigger (s : State) (o : Operand) : (s.advance o).irqTrigger = s.irqTrigger := rfl
@[simp] theorem State.advance_draws (s : State) (o : Operand) : (s.advance o).draws = s.draws := rfl
@[simp] theorem State.advance_script (s : State) (o : Operand) : (s.advance o).script = s.script := rfl
@[simp] theorem State.advance_params (s : State) (o : Operand) : (s.advance o).params = s.params := rfl

@[simp] theorem State.appendLog_a (s : State) (e : LogEntry) : (s.appendLog e).a = s.a := rfl
@[simp] theorem State.appendLog_x (s : State) (e : LogEntry) : (s.appendLog e).x = s.x := rfl
@[simp] theorem State.appendLog_y (s : State) (e : LogEntry) : (s.appendLog e).y = s.y := rfl
@[simp] theorem State.appendLog_sp (s : State) (e : LogEntry) : (s.appendLog e).sp = s.sp := rfl
@[simp] theorem State.appendLog_p (s : State) (e : LogEntry) : (s.appendLog e).p = s.p := rfl
@[simp] theorem State.appendLog_pc (s : State) (e : LogEntry) : (s.appendLog e).pc = s.pc := rfl
@[simp] theorem State.appendLog_paused (s : State) (e : LogEntry) : (s.appendLog e).paused = s.paused := rfl
@[simp] theorem State.appendLog_pauseReason (s : State) (e : LogEntry) : (s.appendLog e).pauseReason = s.pauseReason := rfl
@[simp] theorem State.appendLog_breakpoints (s : State) (e : LogEntry) : (s.appendLog e).breakpoints = s.breakpoints := rfl
@[simp] theorem State.appendLog_bpNmi (s : State) (e : LogEntry) : (s.appendLog e).bpNmi = s.bpNmi := rfl
@[simp] theorem State.appendLog_readWatch (s : State) (e : LogEntry) : (s.appendLog e).readWatch = s.readWatch := rfl
@[simp] theorem State.appendLog_writeWatch (s : State) (e : LogEntry) : (s.appendLog e).writeWatch = s.writeWatch := rfl
@[simp] theorem State.appendLog_stepLog (s : State) (e : LogEntry) : (s.appendLog e).stepLog = (s.stepLog ++ [e]).drop ((s.stepLog ++ [e]).length - s.params.stepLogCapacity) := rfl
@[simp] theorem State.appendLog_ram (s : State) (e : LogEntry) : (s.appendLog e).ram = s.ram := rfl
@[simp] theorem State.appendLog_cartRam (s : State) (e : LogEntry) : (s.appendLog e).cartRam = s.cartRam := rfl
@[simp] theorem State.appendLog_prgRom (s : State) (e : LogEntry) : (s.appendLog e).prgRom = s.prgRom := rfl
@[simp] theorem State.appendLog_chr (s : State) (e : LogEntry) : (s.appendLog e).chr = s.chr := rfl
@[simp] theorem State.appendLog_board (s : State) (e : LogEntry) : (s.appendLog e).board = s.board := rfl
@[simp] theorem State.appendLog_mapper (s : State) (e : LogEntry) : (s.appendLog e).mapper = s.mapper := rfl
@[simp] theorem State.appendLog_apu (s : State) (e : LogEntry) : (s.appendLog e).apu = s.apu := rfl
@[simp] theorem State.appendLog_cycles (s : State) (e : LogEntry) : (s.appendLog e).cycles = s.cycles := rfl
@[simp] theorem State.appendLog_result (s : State) (e : LogEntry) : (s.appendLog e).result = s.result := rfl
@[simp] theorem State.appendLog_watchHit (s : State) (e : LogEntry) : (s.appendLog e).watchHit = s.watchHit := rfl
@[simp] theorem State.appendLog_events (s : State) (e : LogEntry) : (s.appendLog e).events = s.events := rfl
@[simp] theorem State.appendLog_irqTrigger (s : State) (e : LogEntry) : (s.appendLog e).irqTrigger = s.irqTrigger := rfl
@[simp] theorem State.appendLog_draws (s : State) (e : LogEntry) : (s.appendLog e).draws = s.draws := rfl
@[simp] theorem State.appendLog_script (s : State) (e : LogEntry) : (s.appendLog e).script = s.script := rfl
@[simp] theorem State.appendLog_params (s : State) (e : LogEntry) : (s.appendLog e).params = s.params := rfl

/-- A read of a cell sees the three memories only. -/
theorem State.cellByte_congr {s t : State} (hr : t.ram = s.ram) (hc : t.cartRam = s.cartRam) (hp : t.prgRom = s.prgRom) :
    KeepsMemory s t := by
  intro c
  cases c <;> simp [State.cellByte, hr, hc, hp]

end Sys2Proof.Machine
end

