-- ==== Sys2Proof/Laws/Ops.lean ====
section
/-! SUPPORT. What a bus access, a stack operation, an address phase and an interrupt entry can do, said once each. -/

namespace Sys2Proof.Machine

/-! ## Bus reads change devices only -/

/-- The states that differ in the devices only. -/
def SameButDevices (s t : State) : Prop :=
  t = { s with apu := t.apu, mapper := t.mapper, events := t.events, irqTrigger := t.irqTrigger, draws := t.draws }

theorem SameButDevices.refl (s : State) : SameButDevices s s := rfl

theorem SameButDevices.trans {s t u : State} (h1 : SameButDevices s t) (h2 : SameButDevices t u) : SameButDevices s u := by
  unfold SameButDevices at *
  rw [h2, h1]

theorem setMapper_sameButDevices (m : MapperState) (s : State) : SameButDevices s (s.setMapper m) := by
  unfold State.setMapper State.triggerIf
  split <;> rfl

theorem readLocation_sameButDevices (l : Location) (s : State) : SameButDevices s (readLocation l s).2 := by
  cases l <;> rfl

/-- A bus read changes nothing but the devices: APU, mapper, events, trigger and draws. -/
theorem busRead_sameButDevices (a : Addr) (s : State) : SameButDevices s (busRead a s).2 := by
  unfold busRead
  split
  · rfl
  · rfl
  · unfold apuRead; split
    · rfl
    · split
      · rfl
      · split <;> rfl
  · exact (readLocation_sameButDevices _ s).trans (setMapper_sameButDevices _ _)

@[simp] theorem busRead_a (b : Addr) (s : State) : (busRead b s).2.a = s.a := by
  rw [busRead_sameButDevices b s]
@[simp] theorem busRead_x (b : Addr) (s : State) : (busRead b s).2.x = s.x := by
  rw [busRead_sameButDevices b s]
@[simp] theorem busRead_y (b : Addr) (s : State) : (busRead b s).2.y = s.y := by
  rw [busRead_sameButDevices b s]
@[simp] theorem busRead_sp (b : Addr) (s : State) : (busRead b s).2.sp = s.sp := by
  rw [busRead_sameButDevices b s]
@[simp] theorem busRead_p (b : Addr) (s : State) : (busRead b s).2.p = s.p := by
  rw [busRead_sameButDevices b s]
@[simp] theorem busRead_pc (b : Addr) (s : State) : (busRead b s).2.pc = s.pc := by
  rw [busRead_sameButDevices b s]
@[simp] theorem busRead_paused (b : Addr) (s : State) : (busRead b s).2.paused = s.paused := by
  rw [busRead_sameButDevices b s]
@[simp] theorem busRead_pauseReason (b : Addr) (s : State) : (busRead b s).2.pauseReason = s.pauseReason := by
  rw [busRead_sameButDevices b s]
@[simp] theorem busRead_breakpoints (b : Addr) (s : State) : (busRead b s).2.breakpoints = s.breakpoints := by
  rw [busRead_sameButDevices b s]
@[simp] theorem busRead_bpNmi (b : Addr) (s : State) : (busRead b s).2.bpNmi = s.bpNmi := by
  rw [busRead_sameButDevices b s]
@[simp] theorem busRead_readWatch (b : Addr) (s : State) : (busRead b s).2.readWatch = s.readWatch := by
  rw [busRead_sameButDevices b s]
@[simp] theorem busRead_writeWatch (b : Addr) (s : State) : (busRead b s).2.writeWatch = s.writeWatch := by
  rw [busRead_sameButDevices b s]
@[simp] theorem busRead_stepLog (b : Addr) (s : State) : (busRead b s).2.stepLog = s.stepLog := by
  rw [busRead_sameButDevices b s]
@[simp] theorem busRead_ram (b : Addr) (s : State) : (busRead b s).2.ram = s.ram := by
  rw [busRead_sameButDevices b s]
@[simp] theorem busRead_cartRam (b : Addr) (s : State) : (busRead b s).2.cartRam = s.cartRam := by
  rw [busRead_sameButDevices b s]
@[simp] theorem busRead_prgRom (b : Addr) (s : State) : (busRead b s).2.prgRom = s.prgRom := by
  rw [busRead_sameButDevices b s]
@[simp] theorem busRead_chr (b : Addr) (s : State) : (busRead b s).2.chr = s.chr := by
  rw [busRead_sameButDevices b s]
@[simp] theorem busRead_board (b : Addr) (s : State) : (busRead b s).2.board = s.board := by
  rw [busRead_sameButDevices b s]
@[simp] theorem busRead_cycles (b : Addr) (s : State) : (busRead b s).2.cycles = s.cycles := by
  rw [busRead_sameButDevices b s]
@[simp] theorem busRead_result (b : Addr) (s : State) : (busRead b s).2.result = s.result := by
  rw [busRead_sameButDevices b s]
@[simp] theorem busRead_watchHit (b : Addr) (s : State) : (busRead b s).2.watchHit = s.watchHit := by
  rw [busRead_sameButDevices b s]
@[simp] theorem busRead_script (b : Addr) (s : State) : (busRead b s).2.script = s.script := by
  rw [busRead_sameButDevices b s]
@[simp] theorem busRead_params (b : Addr) (s : State) : (busRead b s).2.params = s.params := by
  rw [busRead_sameButDevices b s]

/-- In RAM a bus read gives the byte and changes nothing (20_memory R53). -/
theorem busRead_inRam (a : Addr) (s : State) (h : a.toNat < 0x2000) :
    busRead a s = (s.ram.read (a.toNat % 0x0800), s) := by
  simp [busRead, decodeAddr, h]

/-- Where a memory cell backs a bus read, the read gives its byte and changes nothing. -/
theorem busRead_cell (a : Addr) (s : State) (c : Cell) (h : s.readCell a = some c) : busRead a s = (s.cellByte c, s) := by
  unfold State.readCell at h
  unfold busRead
  split at h
  · cases h; simp [State.cellByte]
  · cases h
  · cases h
  · rename_i hd
    split at h
    · cases h
    · rename_i size hb
      simp only [cartRead, hb]
      have hm : ∀ t : State, t.board = .nrom size → t.setMapper (mapperOnRead t.board a t.mapper) = t := by
        intro t ht
        cases t
        cases ht
        rfl
      split at h
      · rename_i he; cases h; simp [he, readLocation, State.cellByte, hm s hb]
      · rename_i he; cases h; simp [he, readLocation, State.cellByte, hm s hb]
      · cases h

/-! ## Bus writes -/

/-- The states that differ in RAM, cartridge RAM and the devices only. -/
def SameButStored (s t : State) : Prop :=
  t = { s with ram := t.ram, cartRam := t.cartRam, apu := t.apu, mapper := t.mapper, events := t.events,
               irqTrigger := t.irqTrigger, draws := t.draws }

theorem SameButStored.refl (s : State) : SameButStored s s := rfl

theorem SameButStored.trans {s t u : State} (h1 : SameButStored s t) (h2 : SameButStored t u) : SameButStored s u := by
  unfold SameButStored at *
  rw [h2, h1]

theorem SameButDevices.stored {s t : State} (h : SameButDevices s t) : SameButStored s t := by
  unfold SameButDevices at h
  unfold SameButStored
  rw [h]

/-- A bus write changes nothing but RAM, cartridge RAM and the devices. -/
theorem busWrite_sameButStored (a : Addr) (v : Byte) (s : State) : SameButStored s (busWrite a v s) := by
  unfold busWrite
  split
  · rfl
  · rfl
  · unfold apuWrite; split <;> rfl
  · unfold cartWrite
    split
    · exact (setMapper_sameButDevices _ _).stored
    · split
      · split <;> rfl
      · rfl

@[simp] theorem busWrite_a (b : Addr) (w : Byte) (s : State) : (busWrite b w s).a = s.a := by
  rw [busWrite_sameButStored b w s]
@[simp] theorem busWrite_x (b : Addr) (w : Byte) (s : State) : (busWrite b w s).x = s.x := by
  rw [busWrite_sameButStored b w s]
@[simp] theorem busWrite_y (b : Addr) (w : Byte) (s : State) : (busWrite b w s).y = s.y := by
  rw [busWrite_sameButStored b w s]
@[simp] theorem busWrite_sp (b : Addr) (w : Byte) (s : State) : (busWrite b w s).sp = s.sp := by
  rw [busWrite_sameButStored b w s]
@[simp] theorem busWrite_p (b : Addr) (w : Byte) (s : State) : (busWrite b w s).p = s.p := by
  rw [busWrite_sameButStored b w s]
@[simp] theorem busWrite_pc (b : Addr) (w : Byte) (s : State) : (busWrite b w s).pc = s.pc := by
  rw [busWrite_sameButStored b w s]
@[simp] theorem busWrite_paused (b : Addr) (w : Byte) (s : State) : (busWrite b w s).paused = s.paused := by
  rw [busWrite_sameButStored b w s]
@[simp] theorem busWrite_pauseReason (b : Addr) (w : Byte) (s : State) : (busWrite b w s).pauseReason = s.pauseReason := by
  rw [busWrite_sameButStored b w s]
@[simp] theorem busWrite_breakpoints (b : Addr) (w : Byte) (s : State) : (busWrite b w s).breakpoints = s.breakpoints := by
  rw [busWrite_sameButStored b w s]
@[simp] theorem busWrite_bpNmi (b : Addr) (w : Byte) (s : State) : (busWrite b w s).bpNmi = s.bpNmi := by
  rw [busWrite_sameButStored b w s]
@[simp] theorem busWrite_readWatch (b : Addr) (w : Byte) (s : State) : (busWrite b w s).readWatch = s.readWatch := by
  rw [busWrite_sameButStored b w s]
@[simp] theorem busWrite_writeWatch (b : Addr) (w : Byte) (s : State) : (busWrite b w s).writeWatch = s.writeWatch := by
  rw [busWrite_sameButStored b w s]
@[simp] theorem busWrite_stepLog (b : Addr) (w : Byte) (s : State) : (busWrite b w s).stepLog = s.stepLog := by
  rw [busWrite_sameButStored b w s]
@[simp] theorem busWrite_prgRom (b : Addr) (w : Byte) (s : State) : (busWrite b w s).prgRom = s.prgRom := by
  rw [busWrite_sameButStored b w s]
@[simp] theorem busWrite_chr (b : Addr) (w : Byte) (s : State) : (busWrite b w s).chr = s.chr := by
  rw [busWrite_sameButStored b w s]
@[simp] theorem busWrite_board (b : Addr) (w : Byte) (s : State) : (busWrite b w s).board = s.board := by
  rw [busWrite_sameButStored b w s]
@[simp] theorem busWrite_cycles (b : Addr) (w : Byte) (s : State) : (busWrite b w s).cycles = s.cycles := by
  rw [busWrite_sameButStored b w s]
@[simp] theorem busWrite_result (b : Addr) (w : Byte) (s : State) : (busWrite b w s).result = s.result := by
  rw [busWrite_sameButStored b w s]
@[simp] theorem busWrite_watchHit (b : Addr) (w : Byte) (s : State) : (busWrite b w s).watchHit = s.watchHit := by
  rw [busWrite_sameButStored b w s]
@[simp] theorem busWrite_script (b : Addr) (w : Byte) (s : State) : (busWrite b w s).script = s.script := by
  rw [busWrite_sameButStored b w s]
@[simp] theorem busWrite_params (b : Addr) (w : Byte) (s : State) : (busWrite b w s).params = s.params := by
  rw [busWrite_sameButStored b w s]

/-- In RAM a bus write stores the byte and changes nothing else (20_memory R53). -/
theorem busWrite_inRam (a : Addr) (v : Byte) (s : State) (h : a.toNat < 0x2000) :
    busWrite a v s = { s with ram := s.ram.write (a.toNat % 0x0800) v } := by
  simp [busWrite, decodeAddr, h]

/-- A bus write leaves every memory cell but the one it stores to. -/
theorem busWrite_cellByte (a : Addr) (v : Byte) (s : State) : KeepsMemoryBut (s.writeCell a) s (busWrite a v s) := by
  intro c hc
  unfold State.writeCell at hc
  unfold busWrite
  split at hc
  · rename_i off _
    cases c with
    | ram o2 =>
      have hne : o2 ≠ off := by intro he; exact hc (by rw [he])
      simp [State.cellByte, Memory.read_write_other _ _ _ _ hne]
    | cartRam o2 => simp [State.cellByte]
    | prg o2 => simp [State.cellByte]
  · cases c <;> rfl
  · unfold apuWrite
    split <;> cases c <;> rfl
  · simp only [cartWrite]
    split at hc
    · rename_i hcl; simp only [hcl, if_true]; cases c <;> simp [State.cellByte]
    · rename_i hcl
      simp only [hcl]
      split at hc
      · rename_i hlt
        simp only [hlt, if_true]
        split at hc
        · rename_i off _
          cases c with
          | ram o2 => rfl
          | cartRam o2 =>
            have hne : o2 ≠ off := by intro h2; exact hc (by rw [h2])
            simp [State.cellByte, Memory.read_write_other _ _ _ _ hne]
          | prg o2 => rfl
        · rfl
        · rfl
      · rename_i hlt; simp only [hlt]; rfl

/-- A bus write to a memory cell leaves the byte there, when the memories are in canonical form. -/
theorem busWrite_stores (a : Addr) (v : Byte) (s : State) (c : Cell) (hs : s.memoriesOk = true)
    (h : s.writeCell a = some c) : (busWrite a v s).cellByte c = v := by
  simp only [State.memoriesOk, Bool.and_eq_true] at hs
  unfold State.writeCell at h
  unfold busWrite
  split at h
  · cases h
    simp [State.cellByte, Memory.read_write_same _ _ _ hs.1.1.1]
  · cases h
  · cases h
  · simp only [cartWrite]
    split at h
    · cases h
    · rename_i hcl
      split at h
      · rename_i hlt
        split at h
        · cases h
          simp [hcl, hlt, State.cellByte, Memory.read_write_same _ _ _ hs.1.2]
        · cases h
        · cases h
      · cases h

/-! ## The canonical form is kept -/

theorem SameButDevices.memoriesOk {s t : State} (h : SameButDevices s t) : t.memoriesOk = s.memoriesOk := by
  unfold SameButDevices at h
  rw [h]
  rfl

/-- A bus read keeps the memories. -/
theorem busRead_memoriesOk (a : Addr) (s : State) : (busRead a s).2.memoriesOk = s.memoriesOk :=
  (busRead_sameButDevices a s).memoriesOk

theorem decodeAddr_ram_lt (a : Addr) (off : Nat) (h : decodeAddr a = .ram off) : off < 0x0800 := by
  unfold decodeAddr at h
  split at h
  · cases h; exact Nat.mod_lt _ (by decide)
  · split at h
    · cases h
    · split at h <;> cases h

/-- A bus write keeps the memories in canonical form. -/
theorem busWrite_memoriesOk (a : Addr) (v : Byte) (s : State) (h : s.memoriesOk = true) :
    (busWrite a v s).memoriesOk = true := by
  have h' := h
  simp only [State.memoriesOk, Bool.and_eq_true] at h'
  obtain ⟨⟨⟨h1, h2⟩, h3⟩, h4⟩ := h'
  unfold busWrite
  split
  · rename_i off hd
    simp only [State.memoriesOk, Bool.and_eq_true]
    exact ⟨⟨⟨Memory.wf_write _ _ _ h1, Memory.below_write _ _ _ _ (decodeAddr_ram_lt a off hd) h2⟩, h3⟩, h4⟩
  · exact h
  · unfold apuWrite; split <;> exact h
  · unfold cartWrite
    split
    · rw [(setMapper_sameButDevices _ s).memoriesOk]; exact h
    · split
      · split
        · simp only [State.memoriesOk, Bool.and_eq_true]
          exact ⟨⟨⟨h1, h2⟩, Memory.wf_write _ _ _ h3⟩, h4⟩
        · exact h
        · exact h
      · exact h

/-- Placing a byte keeps the memories in canonical form, when a RAM cell is one of the 2048. -/
theorem placeAt_memoriesOk (a : Addr) (b : Byte) (s : State) (h : s.memoriesOk = true) :
    (s.placeAt a b).memoriesOk = true := by
  have h' := h
  simp only [State.memoriesOk, Bool.and_eq_true] at h'
  obtain ⟨⟨⟨h1, h2⟩, h3⟩, h4⟩ := h'
  unfold State.placeAt
  split
  · rename_i c hc
    cases c with
    | ram off =>
      have hlt : off < 0x0800 := by
        unfold State.readCell at hc
        split at hc
        · rename_i o2 hd; cases hc; exact decodeAddr_ram_lt a _ hd
        · cases hc
        · cases hc
        · split at hc
          · cases hc
          · split at hc <;> cases hc
      simp only [State.placeCell, State.memoriesOk, Bool.and_eq_true]
      exact ⟨⟨⟨Memory.wf_write _ _ _ h1, Memory.below_write _ _ _ _ hlt h2⟩, h3⟩, h4⟩
    | cartRam off =>
      simp only [State.placeCell, State.memoriesOk, Bool.and_eq_true]
      exact ⟨⟨⟨h1, h2⟩, Memory.wf_write _ _ _ h3⟩, h4⟩
    | prg off =>
      simp only [State.placeCell, State.memoriesOk, Bool.and_eq_true]
      exact ⟨⟨⟨h1, h2⟩, h3⟩, Memory.wf_write _ _ _ h4⟩
  · exact h

/-! ## The stack -/

/-- The stack page is RAM: slot `sp` is at offset 0x0100 + sp (10_state R21). -/
theorem stackAddr_toNat (sp : Byte) : (stackAddr sp).toNat = 0x0100 + sp.toNat := by
  have h := sp.isLt
  simp only [stackAddr, wordOf, BitVec.toNat_append]
  rw [Nat.shiftLeft_eq, Nat.mul_comm, ← Nat.two_pow_add_eq_or_of_lt h]
  rfl

/-- What a push does: one RAM byte, and S one less (00_scope R9). -/
theorem push_eq (v : Byte) (s : State) :
    push v s = { s with ram := s.ram.write (0x0100 + s.sp.toNat) v, sp := s.sp - 1 } := by
  have h := s.sp.isLt
  have ha := stackAddr_toNat s.sp
  unfold push
  rw [busWrite_inRam _ _ _ (by omega), ha, Nat.mod_eq_of_lt (by omega)]
  rfl

/-- What a pop does: S one more, and the RAM byte there (00_scope R9). -/
theorem pop_eq (s : State) :
    pop s = (s.ram.read (0x0100 + (s.sp + 1).toNat), { s with sp := s.sp + 1 }) := by
  have h := (s.sp + 1).isLt
  have ha := stackAddr_toNat (s.sp + 1)
  unfold pop
  rw [busRead_inRam _ _ (by omega), ha, Nat.mod_eq_of_lt (by omega)]
  rfl

/-- What pushing a word does: high byte first, S two less. -/
theorem pushWord_eq (w : Addr) (s : State) :
    pushWord w s = { s with
      ram := (s.ram.write (0x0100 + s.sp.toNat) (hiByte w)).write (0x0100 + (s.sp - 1).toNat) (loByte w)
      sp := s.sp - 1 - 1 } := by
  simp [pushWord, push_eq]

/-- What popping a word does: low byte first, S two more. -/
theorem popWord_eq (s : State) :
    popWord s = (wordOf (s.ram.read (0x0100 + (s.sp + 1 + 1).toNat)) (s.ram.read (0x0100 + (s.sp + 1).toNat)),
      { s with sp := s.sp + 1 + 1 }) := by
  simp [popWord, pop_eq]

/-- A word is its high byte and its low byte. -/
theorem wordOf_hi_lo (w : Addr) : wordOf (hiByte w) (loByte w) = w := by
  apply BitVec.eq_of_getLsbD_eq
  intro i hi
  simp only [wordOf, hiByte, loByte, BitVec.getLsbD_append, BitVec.getLsbD_setWidth, BitVec.getLsbD_ushiftRight]
  by_cases h : i < 8
  · simp [h]
  · have h1 : i - 8 < 8 := by omega
    have h2 : 8 + (i - 8) = i := by omega
    simp [h, h1, h2]

@[simp] theorem hiByte_wordOf (h l : Byte) : hiByte (wordOf h l) = h := by
  unfold wordOf hiByte
  apply BitVec.eq_of_getLsbD_eq
  intro i hi
  have h1 : ¬ (8 + i < 8) := by omega
  rw [BitVec.getLsbD_setWidth, BitVec.getLsbD_ushiftRight, BitVec.getLsbD_append]
  simp [hi, h1]

@[simp] theorem loByte_wordOf (h l : Byte) : loByte (wordOf h l) = l := by
  unfold wordOf loByte
  apply BitVec.eq_of_getLsbD_eq
  intro i hi
  rw [BitVec.getLsbD_setWidth, BitVec.getLsbD_append]
  simp [hi]

/-! ## The address phase and the operand -/

theorem zeroPage_toNat (b : Byte) : (zeroPage b).toNat = b.toNat := by
  simp only [zeroPage, wordOf, BitVec.toNat_append]
  simp

/-- A page-0 pointer reads two RAM bytes and changes nothing (30_encoding R97, R98). -/
theorem zeroPagePointer_eq (b : Byte) (s : State) :
    zeroPagePointer b s = (wordOf (s.ram.read (b + 1).toNat) (s.ram.read b.toNat), s) := by
  have h1 := b.isLt
  have h2 := (b + 1).isLt
  unfold zeroPagePointer
  rw [busRead_inRam _ _ (by rw [zeroPage_toNat]; omega)]
  dsimp only
  rw [busRead_inRam _ _ (by rw [zeroPage_toNat]; omega)]
  simp only [zeroPage_toNat]
  rw [Nat.mod_eq_of_lt (by omega), Nat.mod_eq_of_lt (by omega)]

theorem jumpPointer_sameButDevices (w : Addr) (s : State) : SameButDevices s (jumpPointer w s).2 :=
  (busRead_sameButDevices _ s).trans (busRead_sameButDevices _ _)

/-- The address phase changes nothing but the devices, and those only for JMP (ind). -/
theorem resolve_sameButDevices (o : Operand) (s : State) : SameButDevices s (resolve o s).2 := by
  cases o <;> try rfl
  case indx b => simp only [resolve, zeroPagePointer_eq]; rfl
  case indy b => simp only [resolve, zeroPagePointer_eq]; rfl
  case ind w => exact jumpPointer_sameButDevices w s

/-- Reading an operand changes nothing but the devices and the watchpoint note. -/
theorem loadOperand_frame (o : Operand) (ea : Option Addr) (s : State) :
    SameButDevices { s with watchHit := (loadOperand o ea s).2.watchHit } (loadOperand o ea s).2 := by
  have hd : ∀ a, SameButDevices { s with watchHit := (dataRead a s).2.watchHit } (dataRead a s).2 := by
    intro a
    have h := busRead_sameButDevices a (s.noteAccess a .read)
    have hn : s.noteAccess a .read = { s with watchHit := (s.noteAccess a .read).watchHit } := by
      unfold State.noteAccess; split <;> rfl
    unfold dataRead
    unfold SameButDevices at h ⊢
    rw [h, hn]
  cases o <;> cases ea <;> first | rfl | exact hd _

@[simp] theorem resolve_a (o : Operand) (s : State) : (resolve o s).2.a = s.a := by
  rw [resolve_sameButDevices o s]
@[simp] theorem resolve_x (o : Operand) (s : State) : (resolve o s).2.x = s.x := by
  rw [resolve_sameButDevices o s]
@[simp] theorem resolve_y (o : Operand) (s : State) : (resolve o s).2.y = s.y := by
  rw [resolve_sameButDevices o s]
@[simp] theorem resolve_sp (o : Operand) (s : State) : (resolve o s).2.sp = s.sp := by
  rw [resolve_sameButDevices o s]
@[simp] theorem resolve_p (o : Operand) (s : State) : (resolve o s).2.p = s.p := by
  rw [resolve_sameButDevices o s]
@[simp] theorem resolve_pc (o : Operand) (s : State) : (resolve o s).2.pc = s.pc := by
  rw [resolve_sameButDevices o s]
@[simp] theorem resolve_paused (o : Operand) (s : State) : (resolve o s).2.paused = s.paused := by
  rw [resolve_sameButDevices o s]
@[simp] theorem resolve_pauseReason (o : Operand) (s : State) : (resolve o s).2.pauseReason = s.pauseReason := by
  rw [resolve_sameButDevices o s]
@[simp] theorem resolve_breakpoints (o : Operand) (s : State) : (resolve o s).2.breakpoints = s.breakpoints := by
  rw [resolve_sameButDevices o s]
@[simp] theorem resolve_bpNmi (o : Operand) (s : State) : (resolve o s).2.bpNmi = s.bpNmi := by
  rw [resolve_sameButDevices o s]
@[simp] theorem resolve_readWatch (o : Operand) (s : State) : (resolve o s).2.readWatch = s.readWatch := by
  rw [resolve_sameButDevices o s]
@[simp] theorem resolve_writeWatch (o : Operand) (s : State) : (resolve o s).2.writeWatch = s.writeWatch := by
  rw [resolve_sameButDevices o s]
@[simp] theorem resolve_stepLog (o : Operand) (s : State) : (resolve o s).2.stepLog = s.stepLog := by
  rw [resolve_sameButDevices o s]
@[simp] theorem resolve_ram (o : Operand) (s : State) : (resolve o s).2.ram = s.ram := by
  rw [resolve_sameButDevices o s]
@[simp] theorem resolve_cartRam (o : Operand) (s : State) : (resolve o s).2.cartRam = s.cartRam := by
  rw [resolve_sameButDevices o s]
@[simp] theorem resolve_prgRom (o : Operand) (s : State) : (resolve o s).2.prgRom = s.prgRom := by
  rw [resolve_sameButDevices o s]
@[simp] theorem resolve_chr (o : Operand) (s : State) : (resolve o s).2.chr = s.chr := by
  rw [resolve_sameButDevices o s]
@[simp] theorem resolve_board (o : Operand) (s : State) : (resolve o s).2.board = s.board := by
  rw [resolve_sameButDevices o s]
@[simp] theorem resolve_cycles (o : Operand) (s : State) : (resolve o s).2.cycles = s.cycles := by
  rw [resolve_sameButDevices o s]
@[simp] theorem resolve_result (o : Operand) (s : State) : (resolve o s).2.result = s.result := by
  rw [resolve_sameButDevices o s]
@[simp] theorem resolve_watchHit (o : Operand) (s : State) : (resolve o s).2.watchHit = s.watchHit := by
  rw [resolve_sameButDevices o s]
@[simp] theorem resolve_script (o : Operand) (s : State) : (resolve o s).2.script = s.script := by
  rw [resolve_sameButDevices o s]
@[simp] theorem resolve_params (o : Operand) (s : State) : (resolve o s).2.params = s.params := by
  rw [resolve_sameButDevices o s]
@[simp] theorem loadOperand_a (o : Operand) (ea : Option Addr) (s : State) : (loadOperand o ea s).2.a = s.a := by
  rw [loadOperand_frame o ea s]
@[simp] theorem loadOperand_x (o : Operand) (ea : Option Addr) (s : State) : (loadOperand o ea s).2.x = s.x := by
  rw [loadOperand_frame o ea s]
@[simp] theorem loadOperand_y (o : Operand) (ea : Option Addr) (s : State) : (loadOperand o ea s).2.y = s.y := by
  rw [loadOperand_frame o ea s]
@[simp] theorem loadOperand_sp (o : Operand) (ea : Option Addr) (s : State) : (loadOperand o ea s).2.sp = s.sp := by
  rw [loadOperand_frame o ea s]
@[simp] theorem loadOperand_p (o : Operand) (ea : Option Addr) (s : State) : (loadOperand o ea s).2.p = s.p := by
  rw [loadOperand_frame o ea s]
@[simp] theorem loadOperand_pc (o : Operand) (ea : Option Addr) (s : State) : (loadOperand o ea s).2.pc = s.pc := by
  rw [loadOperand_frame o ea s]
@[simp] theorem loadOperand_paused (o : Operand) (ea : Option Addr) (s : State) : (loadOperand o ea s).2.paused = s.paused := by
  rw [loadOperand_frame o ea s]
@[simp] theorem loadOperand_pauseReason (o : Operand) (ea : Option Addr) (s : State) : (loadOperand o ea s).2.pauseReason = s.pauseReason := by
  rw [loadOperand_frame o ea s]
@[simp] theorem loadOperand_breakpoints (o : Operand) (ea : Option Addr) (s : State) : (loadOperand o ea s).2.breakpoints = s.breakpoints := by
  rw [loadOperand_frame o ea s]
@[simp] theorem loadOperand_bpNmi (o : Operand) (ea : Option Addr) (s : State) : (loadOperand o ea s).2.bpNmi = s.bpNmi := by
  rw [loadOperand_frame o ea s]
@[simp] theorem loadOperand_readWatch (o : Operand) (ea : Option Addr) (s : State) : (loadOperand o ea s).2.readWatch = s.readWatch := by
  rw [loadOperand_frame o ea s]
@[simp] theorem loadOperand_writeWatch (o : Operand) (ea : Option Addr) (s : State) : (loadOperand o ea s).2.writeWatch = s.writeWatch := by
  rw [loadOperand_frame o ea s]
@[simp] theorem loadOperand_stepLog (o : Operand) (ea : Option Addr) (s : State) : (loadOperand o ea s).2.stepLog = s.stepLog := by
  rw [loadOperand_frame o ea s]
@[simp] theorem loadOperand_ram (o : Operand) (ea : Option Addr) (s : State) : (loadOperand o ea s).2.ram = s.ram := by
  rw [loadOperand_frame o ea s]
@[simp] theorem loadOperand_cartRam (o : Operand) (ea : Option Addr) (s : State) : (loadOperand o ea s).2.cartRam = s.cartRam := by
  rw [loadOperand_frame o ea s]
@[simp] theorem loadOperand_prgRom (o : Operand) (ea : Option Addr) (s : State) : (loadOperand o ea s).2.prgRom = s.prgRom := by
  rw [loadOperand_frame o ea s]
@[simp] theorem loadOperand_chr (o : Operand) (ea : Option Addr) (s : State) : (loadOperand o ea s).2.chr = s.chr := by
  rw [loadOperand_frame o ea s]
@[simp] theorem loadOperand_board (o : Operand) (ea : Option Addr) (s : State) : (loadOperand o ea s).2.board = s.board := by
  rw [loadOperand_frame o ea s]
@[simp] theorem loadOperand_cycles (o : Operand) (ea : Option Addr) (s : State) : (loadOperand o ea s).2.cycles = s.cycles := by
  rw [loadOperand_frame o ea s]
@[simp] theorem loadOperand_result (o : Operand) (ea : Option Addr) (s : State) : (loadOperand o ea s).2.result = s.result := by
  rw [loadOperand_frame o ea s]
@[simp] theorem loadOperand_script (o : Operand) (ea : Option Addr) (s : State) : (loadOperand o ea s).2.script = s.script := by
  rw [loadOperand_frame o ea s]
@[simp] theorem loadOperand_params (o : Operand) (ea : Option Addr) (s : State) : (loadOperand o ea s).2.params = s.params := by
  rw [loadOperand_frame o ea s]
@[simp] theorem addressed_a (o : Operand) (s : State) : (addressed o s).2.a = s.a := by
  simp [addressed]
@[simp] theorem addressed_x (o : Operand) (s : State) : (addressed o s).2.x = s.x := by
  simp [addressed]
@[simp] theorem addressed_y (o : Operand) (s : State) : (addressed o s).2.y = s.y := by
  simp [addressed]
@[simp] theorem addressed_sp (o : Operand) (s : State) : (addressed o s).2.sp = s.sp := by
  simp [addressed]
@[simp] theorem addressed_p (o : Operand) (s : State) : (addressed o s).2.p = s.p := by
  simp [addressed]
@[simp] theorem addressed_pc (o : Operand) (s : State) : (addressed o s).2.pc = s.pc + BitVec.ofNat 16 o.length := by
  simp [addressed]
@[simp] theorem addressed_paused (o : Operand) (s : State) : (addressed o s).2.paused = s.paused := by
  simp [addressed]
@[simp] theorem addressed_pauseReason (o : Operand) (s : State) : (addressed o s).2.pauseReason = s.pauseReason := by
  simp [addressed]
@[simp] theorem addressed_breakpoints (o : Operand) (s : State) : (addressed o s).2.breakpoints = s.breakpoints := by
  simp [addressed]
@[simp] theorem addressed_bpNmi (o : Operand) (s : State) : (addressed o s).2.bpNmi = s.bpNmi := by
  simp [addressed]
@[simp] theorem addressed_readWatch (o : Operand) (s : State) : (addressed o s).2.readWatch = s.readWatch := by
  simp [addressed]
@[simp] theorem addressed_writeWatch (o : Operand) (s : State) : (addressed o s).2.writeWatch = s.writeWatch := by
  simp [addressed]
@[simp] theorem addressed_stepLog (o : Operand) (s : State) : (addressed o s).2.stepLog = s.stepLog := by
  simp [addressed]
@[simp] theorem addressed_ram (o : Operand) (s : State) : (addressed o s).2.ram = s.ram := by
  simp [addressed]
@[simp] theorem addressed_cartRam (o : Operand) (s : State) : (addressed o s).2.cartRam = s.cartRam := by
  simp [addressed]
@[simp] theorem addressed_prgRom (o : Operand) (s : State) : (addressed o s).2.prgRom = s.prgRom := by
  simp [addressed]
@[simp] theorem addressed_chr (o : Operand) (s : State) : (addressed o s).2.chr = s.chr := by
  simp [addressed]
@[simp] theorem addressed_board (o : Operand) (s : State) : (addressed o s).2.board = s.board := by
  simp [addressed]
@[simp] theorem addressed_cycles (o : Operand) (s : State) : (addressed o s).2.cycles = s.cycles := by
  simp [addressed]
@[simp] theorem addressed_result (o : Operand) (s : State) : (addressed o s).2.result = s.result := by
  simp [addressed]
@[simp] theorem addressed_watchHit (o : Operand) (s : State) : (addressed o s).2.watchHit = s.watchHit := by
  simp [addressed]
@[simp] theorem addressed_script (o : Operand) (s : State) : (addressed o s).2.script = s.script := by
  simp [addressed]
@[simp] theorem addressed_params (o : Operand) (s : State) : (addressed o s).2.params = s.params := by
  simp [addressed]

/-- Storing an operand changes nothing but A, RAM, cartridge RAM, the devices and the watchpoint note; A only in
accumulator mode. -/
theorem storeOperand_frame (o : Operand) (ea : Option Addr) (v : Byte) (s : State) :
    SameButStored { s with a := (storeOperand o ea v s).a, watchHit := (storeOperand o ea v s).watchHit }
      (storeOperand o ea v s) := by
  have hd : ∀ b, SameButStored { s with a := (dataWrite b v s).a, watchHit := (dataWrite b v s).watchHit } (dataWrite b v s) := by
    intro b
    have h := busWrite_sameButStored b v (s.noteAccess b .write)
    have hn : s.noteAccess b .write = { s with watchHit := (s.noteAccess b .write).watchHit } := by
      unfold State.noteAccess; split <;> rfl
    unfold dataWrite
    unfold SameButStored at h ⊢
    rw [h, hn]
  cases o <;> cases ea <;> first | rfl | exact hd _

@[simp] theorem storeOperand_x (o : Operand) (ea : Option Addr) (v : Byte) (s : State) : (storeOperand o ea v s).x = s.x := by
  rw [storeOperand_frame o ea v s]
@[simp] theorem storeOperand_y (o : Operand) (ea : Option Addr) (v : Byte) (s : State) : (storeOperand o ea v s).y = s.y := by
  rw [storeOperand_frame o ea v s]
@[simp] theorem storeOperand_sp (o : Operand) (ea : Option Addr) (v : Byte) (s : State) : (storeOperand o ea v s).sp = s.sp := by
  rw [storeOperand_frame o ea v s]
@[simp] theorem storeOperand_p (o : Operand) (ea : Option Addr) (v : Byte) (s : State) : (storeOperand o ea v s).p = s.p := by
  rw [storeOperand_frame o ea v s]
@[simp] theorem storeOperand_pc (o : Operand) (ea : Option Addr) (v : Byte) (s : State) : (storeOperand o ea v s).pc = s.pc := by
  rw [storeOperand_frame o ea v s]
@[simp] theorem storeOperand_paused (o : Operand) (ea : Option Addr) (v : Byte) (s : State) : (storeOperand o ea v s).paused = s.paused := by
  rw [storeOperand_frame o ea v s]
@[simp] theorem storeOperand_pauseReason (o : Operand) (ea : Option Addr) (v : Byte) (s : State) : (storeOperand o ea v s).pauseReason = s.pauseReason := by
  rw [storeOperand_frame o ea v s]
@[simp] theorem storeOperand_breakpoints (o : Operand) (ea : Option Addr) (v : Byte) (s : State) : (storeOperand o ea v s).breakpoints = s.breakpoints := by
  rw [storeOperand_frame o ea v s]
@[simp] theorem storeOperand_bpNmi (o : Operand) (ea : Option Addr) (v : Byte) (s : State) : (storeOperand o ea v s).bpNmi = s.bpNmi := by
  rw [storeOperand_frame o ea v s]
@[simp] theorem storeOperand_readWatch (o : Operand) (ea : Option Addr) (v : Byte) (s : State) : (storeOperand o ea v s).readWatch = s.readWatch := by
  rw [storeOperand_frame o ea v s]
@[simp] theorem storeOperand_writeWatch (o : Operand) (ea : Option Addr) (v : Byte) (s : State) : (storeOperand o ea v s).writeWatch = s.writeWatch := by
  rw [storeOperand_frame o ea v s]
@[simp] theorem storeOperand_stepLog (o : Operand) (ea : Option Addr) (v : Byte) (s : State) : (storeOperand o ea v s).stepLog = s.stepLog := by
  rw [storeOperand_frame o ea v s]
@[simp] theorem storeOperand_prgRom (o : Operand) (ea : Option Addr) (v : Byte) (s : State) : (storeOperand o ea v s).prgRom = s.prgRom := by
  rw [storeOperand_frame o ea v s]
@[simp] theorem storeOperand_chr (o : Operand) (ea : Option Addr) (v : Byte) (s : State) : (storeOperand o ea v s).chr = s.chr := by
  rw [storeOperand_frame o ea v s]
@[simp] theorem storeOperand_board (o : Operand) (ea : Option Addr) (v : Byte) (s : State) : (storeOperand o ea v s).board = s.board := by
  rw [storeOperand_frame o ea v s]
@[simp] theorem storeOperand_cycles (o : Operand) (ea : Option Addr) (v : Byte) (s : State) : (storeOperand o ea v s).cycles = s.cycles := by
  rw [storeOperand_frame o ea v s]
@[simp] theorem storeOperand_result (o : Operand) (ea : Option Addr) (v : Byte) (s : State) : (storeOperand o ea v s).result = s.result := by
  rw [storeOperand_frame o ea v s]
@[simp] theorem storeOperand_script (o : Operand) (ea : Option Addr) (v : Byte) (s : State) : (storeOperand o ea v s).script = s.script := by
  rw [storeOperand_frame o ea v s]
@[simp] theorem storeOperand_params (o : Operand) (ea : Option Addr) (v : Byte) (s : State) : (storeOperand o ea v s).params = s.params := by
  rw [storeOperand_frame o ea v s]

/-! ## Interrupt entry -/

theorem busRead16_sameButDevices (a : Addr) (s : State) : SameButDevices s (busRead16 a s).2 :=
  (busRead_sameButDevices a s).trans (busRead_sameButDevices (a + 1) _)

/-- What an interrupt entry does: three stack bytes, S three less, I set, PC from the vector, and the devices as the
vector reads leave them (60_exceptions R305). -/
theorem enterInterrupt_eq (vec ret : Addr) (status : Byte) (s : State) :
    enterInterrupt vec ret status s =
      (busRead16 vec ((push status (pushWord ret s)).setFlag .i true)).2.setPc
        (busRead16 vec ((push status (pushWord ret s)).setFlag .i true)).1 := rfl

end Sys2Proof.Machine
end

