-- ==== Sys2Proof/Laws/Bus.lean ====
section
/-! SUPPORT. The bus neither reads nor writes the registers, the debug state, the results and the script: a bus access
commutes with any change of those (20_memory R50, R52). -/

namespace Sys2Proof.Machine

/-- `s` with everything the bus does not see taken from `r`. -/
def State.reframe (s r : State) : State :=
  { s with
    a := r.a
    x := r.x
    y := r.y
    sp := r.sp
    p := r.p
    pc := r.pc
    paused := r.paused
    pauseReason := r.pauseReason
    breakpoints := r.breakpoints
    bpNmi := r.bpNmi
    readWatch := r.readWatch
    writeWatch := r.writeWatch
    stepLog := r.stepLog
    cycles := r.cycles
    result := r.result
    watchHit := r.watchHit
    script := r.script }

theorem setMapper_reframe (m : MapperState) (s r : State) : (s.reframe r).setMapper m = (s.setMapper m).reframe r := by
  cases h : (!mapperIrq s.board s.mapper && mapperIrq s.board m) <;>
    (simp only [State.setMapper, State.triggerIf, State.reframe, h]; rfl)

theorem cartRead_reframe (a : Addr) (s r : State) :
    cartRead a (s.reframe r) = ((cartRead a s).1, (cartRead a s).2.reframe r) := by
  have h : readLocation (mapperResolve s.board a s.mapper) (s.reframe r) =
      ((readLocation (mapperResolve s.board a s.mapper) s).1,
        (readLocation (mapperResolve s.board a s.mapper) s).2.reframe r) := by
    cases mapperResolve s.board a s.mapper <;> rfl
  have hb : (s.reframe r).board = s.board := rfl
  have hm : (s.reframe r).mapper = s.mapper := rfl
  simp only [cartRead, hb, hm, h]
  exact Prod.ext rfl (setMapper_reframe _ _ r)

/-- A bus read commutes with a change of what the bus does not see. -/
theorem busRead_reframe (a : Addr) (s r : State) :
    busRead a (s.reframe r) = ((busRead a s).1, (busRead a s).2.reframe r) := by
  unfold busRead
  cases decodeAddr a with
  | ram off => rfl
  | ppu reg => rfl
  | apu i =>
    simp only [apuRead]
    split
    · rfl
    · split
      · rfl
      · split <;> rfl
  | cart => exact cartRead_reframe a s r

/-- A bus write commutes with a change of what the bus does not see. -/
theorem busWrite_reframe (a : Addr) (v : Byte) (s r : State) :
    busWrite a v (s.reframe r) = (busWrite a v s).reframe r := by
  unfold busWrite
  cases decodeAddr a with
  | ram off => rfl
  | ppu reg => rfl
  | apu i => simp only [apuWrite]; split <;> rfl
  | cart =>
    have hb : (s.reframe r).board = s.board := rfl
    have hm : (s.reframe r).mapper = s.mapper := rfl
    simp only [cartWrite, hb, hm]
    split
    · exact setMapper_reframe _ s r
    · split
      · cases mapperResolve s.board a s.mapper <;> rfl
      · rfl

theorem busRead16_reframe (a : Addr) (s r : State) :
    busRead16 a (s.reframe r) = ((busRead16 a s).1, (busRead16 a s).2.reframe r) := by
  simp only [busRead16, busRead_reframe]

/-- The address phase of every mode but JMP (ind) moves PC past the instruction and changes nothing else. -/
theorem addressed_advance (o : Operand) (s : State) (h : o.mode ≠ .ind) : (addressed o s).2 = s.advance o := by
  cases o <;> first
    | rfl
    | (simp only [addressed, resolve, zeroPagePointer_eq]; done)
    | exact absurd rfl h

end Sys2Proof.Machine
end

