-- ==== Sys2Proof/Laws/Flags.lean ====
section
/-! SUPPORT. Reading a flag after each flag computation (10_state R22 to R24). -/

namespace Sys2Proof.Machine

theorem Flag.bit_lt (f : Flag) : f.bit < 8 := by cases f <;> decide

theorem Flag.bit_inj (f g : Flag) : f.bit = g.bit ↔ f = g := by
  cases f <;> cases g <;> simp [Flag.bit]

/-- A flag set is read back, every other flag is as before. -/
theorem getFlag_setFlag (p : Byte) (f g : Flag) (b : Bool) :
    getFlag (setFlag p f b) g = if g = f then b else getFlag p g := by
  have hf := f.bit_lt
  have hg := g.bit_lt
  have key : ((1#8 <<< f.bit) : Byte).getLsbD g.bit = decide (g = f) := by
    cases f <;> cases g <;> decide
  unfold getFlag setFlag
  cases b
  · simp only [Bool.false_eq_true, if_false, BitVec.getLsbD_and, BitVec.getLsbD_not, key]
    by_cases h : g = f <;> simp [h, hf, hg]
  · simp only [if_true, BitVec.getLsbD_or, key]
    by_cases h : g = f <;> simp [h]

@[simp] theorem getFlag_setFlag_same (p : Byte) (f : Flag) (b : Bool) : getFlag (setFlag p f b) f = b := by
  simp [getFlag_setFlag]

/-- `SetNZ` meets its rule (10_state R24). -/
theorem setNZ_flagsNZ (p v : Byte) : FlagsNZ p (setNZ p v) v := by
  refine ⟨?_, ?_, ?_⟩
  · simp [setNZ, getFlag_setFlag]
  · simp [setNZ]
  · intro f hn hz
    simp [setNZ, getFlag_setFlag, hn, hz]

theorem getFlag_setNZ (p v : Byte) (f : Flag) :
    getFlag (setNZ p v) f = if f = .z then decide (v = 0) else if f = .n then v.getLsbD 7 else getFlag p f := by
  simp [setNZ, getFlag_setFlag]

/-- Two status bytes are equal when all their flags are. -/
theorem flags_ext (p q : Byte) (h : ∀ f, getFlag p f = getFlag q f) : p = q := by
  apply BitVec.eq_of_getLsbD_eq
  intro i hi
  have h0 := h .c
  have h1 := h .z
  have h2 := h .i
  have h3 := h .d
  have h4 := h .b
  have h5 := h .r
  have h6 := h .v
  have h7 := h .n
  simp only [getFlag, Flag.bit] at h0 h1 h2 h3 h4 h5 h6 h7
  match i, hi with
  | 0, _ => exact h0
  | 1, _ => exact h1
  | 2, _ => exact h2
  | 3, _ => exact h3
  | 4, _ => exact h4
  | 5, _ => exact h5
  | 6, _ => exact h6
  | 7, _ => exact h7

end Sys2Proof.Machine
end

