-- ==== Sys2Proof/Laws/PerInstr.lean ====
section
/-! SUPPORT. Per-instruction facts about the syntax: every instruction's opcode byte is mapped to a row with its
operation and its operand's mode (30_encoding R104, R107), and that row and operand give the instruction back. -/

namespace Sys2Proof.Laws.TableRow

/-- The table has a row for the instruction's opcode byte, with its operation and its mode, and the instruction is the
one of that operation and operand. -/
def Statement (i : Instr) : Prop :=
  (tableRow i.opcode).map (fun r => (r.op, r.mode)) = some (i.op, i.operand.mode) ∧
    Instr.ofForm i.op i.operand = some i

/-- The operation and mode of a table entry, by opcode number. -/
theorem row (n : Nat) (op : Op) (mode : Mode)
    (h : (tableRow (BitVec.ofNat 8 n)).map (fun r => (r.op, r.mode)) = some (op, mode)) :
    (tableRow (BitVec.ofNat 8 n)).map (fun r => (r.op, r.mode)) = some (op, mode) := h

theorem ldaImm (v : Byte) : Statement (.ldaImm v) := ⟨row 0xA9 .lda .imm (by decide), rfl⟩
theorem ldaZp (b : Byte) : Statement (.ldaZp b) := ⟨row 0xA5 .lda .zp (by decide), rfl⟩
theorem ldaZpx (b : Byte) : Statement (.ldaZpx b) := ⟨row 0xB5 .lda .zpx (by decide), rfl⟩
theorem ldaAbs (w : Addr) : Statement (.ldaAbs w) := ⟨row 0xAD .lda .abs (by decide), rfl⟩
theorem ldaAbsx (w : Addr) : Statement (.ldaAbsx w) := ⟨row 0xBD .lda .absx (by decide), rfl⟩
theorem ldaAbsy (w : Addr) : Statement (.ldaAbsy w) := ⟨row 0xB9 .lda .absy (by decide), rfl⟩
theorem ldaIndx (b : Byte) : Statement (.ldaIndx b) := ⟨row 0xA1 .lda .indx (by decide), rfl⟩
theorem ldaIndy (b : Byte) : Statement (.ldaIndy b) := ⟨row 0xB1 .lda .indy (by decide), rfl⟩
theorem ldxImm (v : Byte) : Statement (.ldxImm v) := ⟨row 0xA2 .ldx .imm (by decide), rfl⟩
theorem ldxZp (b : Byte) : Statement (.ldxZp b) := ⟨row 0xA6 .ldx .zp (by decide), rfl⟩
theorem ldxZpy (b : Byte) : Statement (.ldxZpy b) := ⟨row 0xB6 .ldx .zpy (by decide), rfl⟩
theorem ldxAbs (w : Addr) : Statement (.ldxAbs w) := ⟨row 0xAE .ldx .abs (by decide), rfl⟩
theorem ldxAbsy (w : Addr) : Statement (.ldxAbsy w) := ⟨row 0xBE .ldx .absy (by decide), rfl⟩
theorem ldyImm (v : Byte) : Statement (.ldyImm v) := ⟨row 0xA0 .ldy .imm (by decide), rfl⟩
theorem ldyZp (b : Byte) : Statement (.ldyZp b) := ⟨row 0xA4 .ldy .zp (by decide), rfl⟩
theorem ldyZpx (b : Byte) : Statement (.ldyZpx b) := ⟨row 0xB4 .ldy .zpx (by decide), rfl⟩
theorem ldyAbs (w : Addr) : Statement (.ldyAbs w) := ⟨row 0xAC .ldy .abs (by decide), rfl⟩
theorem ldyAbsx (w : Addr) : Statement (.ldyAbsx w) := ⟨row 0xBC .ldy .absx (by decide), rfl⟩
theorem staZp (b : Byte) : Statement (.staZp b) := ⟨row 0x85 .sta .zp (by decide), rfl⟩
theorem staZpx (b : Byte) : Statement (.staZpx b) := ⟨row 0x95 .sta .zpx (by decide), rfl⟩
theorem staAbs (w : Addr) : Statement (.staAbs w) := ⟨row 0x8D .sta .abs (by decide), rfl⟩
theorem staAbsx (w : Addr) : Statement (.staAbsx w) := ⟨row 0x9D .sta .absx (by decide), rfl⟩
theorem staAbsy (w : Addr) : Statement (.staAbsy w) := ⟨row 0x99 .sta .absy (by decide), rfl⟩
theorem staIndx (b : Byte) : Statement (.staIndx b) := ⟨row 0x81 .sta .indx (by decide), rfl⟩
theorem staIndy (b : Byte) : Statement (.staIndy b) := ⟨row 0x91 .sta .indy (by decide), rfl⟩
theorem stxZp (b : Byte) : Statement (.stxZp b) := ⟨row 0x86 .stx .zp (by decide), rfl⟩
theorem stxZpy (b : Byte) : Statement (.stxZpy b) := ⟨row 0x96 .stx .zpy (by decide), rfl⟩
theorem stxAbs (w : Addr) : Statement (.stxAbs w) := ⟨row 0x8E .stx .abs (by decide), rfl⟩
theorem styZp (b : Byte) : Statement (.styZp b) := ⟨row 0x84 .sty .zp (by decide), rfl⟩
theorem styZpx (b : Byte) : Statement (.styZpx b) := ⟨row 0x94 .sty .zpx (by decide), rfl⟩
theorem styAbs (w : Addr) : Statement (.styAbs w) := ⟨row 0x8C .sty .abs (by decide), rfl⟩
theorem tax : Statement .tax := ⟨row 0xAA .tax .imp (by decide), rfl⟩
theorem tay : Statement .tay := ⟨row 0xA8 .tay .imp (by decide), rfl⟩
theorem tsx : Statement .tsx := ⟨row 0xBA .tsx .imp (by decide), rfl⟩
theorem txa : Statement .txa := ⟨row 0x8A .txa .imp (by decide), rfl⟩
theorem txs : Statement .txs := ⟨row 0x9A .txs .imp (by decide), rfl⟩
theorem tya : Statement .tya := ⟨row 0x98 .tya .imp (by decide), rfl⟩
theorem pha : Statement .pha := ⟨row 0x48 .pha .imp (by decide), rfl⟩
theorem php : Statement .php := ⟨row 0x08 .php .imp (by decide), rfl⟩
theorem pla : Statement .pla := ⟨row 0x68 .pla .imp (by decide), rfl⟩
theorem plp : Statement .plp := ⟨row 0x28 .plp .imp (by decide), rfl⟩
theorem andImm (v : Byte) : Statement (.andImm v) := ⟨row 0x29 .and .imm (by decide), rfl⟩
theorem andZp (b : Byte) : Statement (.andZp b) := ⟨row 0x25 .and .zp (by decide), rfl⟩
theorem andZpx (b : Byte) : Statement (.andZpx b) := ⟨row 0x35 .and .zpx (by decide), rfl⟩
theorem andAbs (w : Addr) : Statement (.andAbs w) := ⟨row 0x2D .and .abs (by decide), rfl⟩
theorem andAbsx (w : Addr) : Statement (.andAbsx w) := ⟨row 0x3D .and .absx (by decide), rfl⟩
theorem andAbsy (w : Addr) : Statement (.andAbsy w) := ⟨row 0x39 .and .absy (by decide), rfl⟩
theorem andIndx (b : Byte) : Statement (.andIndx b) := ⟨row 0x21 .and .indx (by decide), rfl⟩
theorem andIndy (b : Byte) : Statement (.andIndy b) := ⟨row 0x31 .and .indy (by decide), rfl⟩
theorem oraImm (v : Byte) : Statement (.oraImm v) := ⟨row 0x09 .ora .imm (by decide), rfl⟩
theorem oraZp (b : Byte) : Statement (.oraZp b) := ⟨row 0x05 .ora .zp (by decide), rfl⟩
theorem oraZpx (b : Byte) : Statement (.oraZpx b) := ⟨row 0x15 .ora .zpx (by decide), rfl⟩
theorem oraAbs (w : Addr) : Statement (.oraAbs w) := ⟨row 0x0D .ora .abs (by decide), rfl⟩
theorem oraAbsx (w : Addr) : Statement (.oraAbsx w) := ⟨row 0x1D .ora .absx (by decide), rfl⟩
theorem oraAbsy (w : Addr) : Statement (.oraAbsy w) := ⟨row 0x19 .ora .absy (by decide), rfl⟩
theorem oraIndx (b : Byte) : Statement (.oraIndx b) := ⟨row 0x01 .ora .indx (by decide), rfl⟩
theorem oraIndy (b : Byte) : Statement (.oraIndy b) := ⟨row 0x11 .ora .indy (by decide), rfl⟩
theorem eorImm (v : Byte) : Statement (.eorImm v) := ⟨row 0x49 .eor .imm (by decide), rfl⟩
theorem eorZp (b : Byte) : Statement (.eorZp b) := ⟨row 0x45 .eor .zp (by decide), rfl⟩
theorem eorZpx (b : Byte) : Statement (.eorZpx b) := ⟨row 0x55 .eor .zpx (by decide), rfl⟩
theorem eorAbs (w : Addr) : Statement (.eorAbs w) := ⟨row 0x4D .eor .abs (by decide), rfl⟩
theorem eorAbsx (w : Addr) : Statement (.eorAbsx w) := ⟨row 0x5D .eor .absx (by decide), rfl⟩
theorem eorAbsy (w : Addr) : Statement (.eorAbsy w) := ⟨row 0x59 .eor .absy (by decide), rfl⟩
theorem eorIndx (b : Byte) : Statement (.eorIndx b) := ⟨row 0x41 .eor .indx (by decide), rfl⟩
theorem eorIndy (b : Byte) : Statement (.eorIndy b) := ⟨row 0x51 .eor .indy (by decide), rfl⟩
theorem bitZp (b : Byte) : Statement (.bitZp b) := ⟨row 0x24 .bit .zp (by decide), rfl⟩
theorem bitAbs (w : Addr) : Statement (.bitAbs w) := ⟨row 0x2C .bit .abs (by decide), rfl⟩
theorem adcImm (v : Byte) : Statement (.adcImm v) := ⟨row 0x69 .adc .imm (by decide), rfl⟩
theorem adcZp (b : Byte) : Statement (.adcZp b) := ⟨row 0x65 .adc .zp (by decide), rfl⟩
theorem adcZpx (b : Byte) : Statement (.adcZpx b) := ⟨row 0x75 .adc .zpx (by decide), rfl⟩
theorem adcAbs (w : Addr) : Statement (.adcAbs w) := ⟨row 0x6D .adc .abs (by decide), rfl⟩
theorem adcAbsx (w : Addr) : Statement (.adcAbsx w) := ⟨row 0x7D .adc .absx (by decide), rfl⟩
theorem adcAbsy (w : Addr) : Statement (.adcAbsy w) := ⟨row 0x79 .adc .absy (by decide), rfl⟩
theorem adcIndx (b : Byte) : Statement (.adcIndx b) := ⟨row 0x61 .adc .indx (by decide), rfl⟩
theorem adcIndy (b : Byte) : Statement (.adcIndy b) := ⟨row 0x71 .adc .indy (by decide), rfl⟩
theorem sbcImm (v : Byte) : Statement (.sbcImm v) := ⟨row 0xE9 .sbc .imm (by decide), rfl⟩
theorem sbcZp (b : Byte) : Statement (.sbcZp b) := ⟨row 0xE5 .sbc .zp (by decide), rfl⟩
theorem sbcZpx (b : Byte) : Statement (.sbcZpx b) := ⟨row 0xF5 .sbc .zpx (by decide), rfl⟩
theorem sbcAbs (w : Addr) : Statement (.sbcAbs w) := ⟨row 0xED .sbc .abs (by decide), rfl⟩
theorem sbcAbsx (w : Addr) : Statement (.sbcAbsx w) := ⟨row 0xFD .sbc .absx (by decide), rfl⟩
theorem sbcAbsy (w : Addr) : Statement (.sbcAbsy w) := ⟨row 0xF9 .sbc .absy (by decide), rfl⟩
theorem sbcIndx (b : Byte) : Statement (.sbcIndx b) := ⟨row 0xE1 .sbc .indx (by decide), rfl⟩
theorem sbcIndy (b : Byte) : Statement (.sbcIndy b) := ⟨row 0xF1 .sbc .indy (by decide), rfl⟩
theorem cmpImm (v : Byte) : Statement (.cmpImm v) := ⟨row 0xC9 .cmp .imm (by decide), rfl⟩
theorem cmpZp (b : Byte) : Statement (.cmpZp b) := ⟨row 0xC5 .cmp .zp (by decide), rfl⟩
theorem cmpZpx (b : Byte) : Statement (.cmpZpx b) := ⟨row 0xD5 .cmp .zpx (by decide), rfl⟩
theorem cmpAbs (w : Addr) : Statement (.cmpAbs w) := ⟨row 0xCD .cmp .abs (by decide), rfl⟩
theorem cmpAbsx (w : Addr) : Statement (.cmpAbsx w) := ⟨row 0xDD .cmp .absx (by decide), rfl⟩
theorem cmpAbsy (w : Addr) : Statement (.cmpAbsy w) := ⟨row 0xD9 .cmp .absy (by decide), rfl⟩
theorem cmpIndx (b : Byte) : Statement (.cmpIndx b) := ⟨row 0xC1 .cmp .indx (by decide), rfl⟩
theorem cmpIndy (b : Byte) : Statement (.cmpIndy b) := ⟨row 0xD1 .cmp .indy (by decide), rfl⟩
theorem cpxImm (v : Byte) : Statement (.cpxImm v) := ⟨row 0xE0 .cpx .imm (by decide), rfl⟩
theorem cpxZp (b : Byte) : Statement (.cpxZp b) := ⟨row 0xE4 .cpx .zp (by decide), rfl⟩
theorem cpxAbs (w : Addr) : Statement (.cpxAbs w) := ⟨row 0xEC .cpx .abs (by decide), rfl⟩
theorem cpyImm (v : Byte) : Statement (.cpyImm v) := ⟨row 0xC0 .cpy .imm (by decide), rfl⟩
theorem cpyZp (b : Byte) : Statement (.cpyZp b) := ⟨row 0xC4 .cpy .zp (by decide), rfl⟩
theorem cpyAbs (w : Addr) : Statement (.cpyAbs w) := ⟨row 0xCC .cpy .abs (by decide), rfl⟩
theorem incZp (b : Byte) : Statement (.incZp b) := ⟨row 0xE6 .inc .zp (by decide), rfl⟩
theorem incZpx (b : Byte) : Statement (.incZpx b) := ⟨row 0xF6 .inc .zpx (by decide), rfl⟩
theorem incAbs (w : Addr) : Statement (.incAbs w) := ⟨row 0xEE .inc .abs (by decide), rfl⟩
theorem incAbsx (w : Addr) : Statement (.incAbsx w) := ⟨row 0xFE .inc .absx (by decide), rfl⟩
theorem decZp (b : Byte) : Statement (.decZp b) := ⟨row 0xC6 .dec .zp (by decide), rfl⟩
theorem decZpx (b : Byte) : Statement (.decZpx b) := ⟨row 0xD6 .dec .zpx (by decide), rfl⟩
theorem decAbs (w : Addr) : Statement (.decAbs w) := ⟨row 0xCE .dec .abs (by decide), rfl⟩
theorem decAbsx (w : Addr) : Statement (.decAbsx w) := ⟨row 0xDE .dec .absx (by decide), rfl⟩
theorem inx : Statement .inx := ⟨row 0xE8 .inx .imp (by decide), rfl⟩
theorem iny : Statement .iny := ⟨row 0xC8 .iny .imp (by decide), rfl⟩
theorem dex : Statement .dex := ⟨row 0xCA .dex .imp (by decide), rfl⟩
theorem dey : Statement .dey := ⟨row 0x88 .dey .imp (by decide), rfl⟩
theorem aslAcc : Statement .aslAcc := ⟨row 0x0A .asl .acc (by decide), rfl⟩
theorem aslZp (b : Byte) : Statement (.aslZp b) := ⟨row 0x06 .asl .zp (by decide), rfl⟩
theorem aslZpx (b : Byte) : Statement (.aslZpx b) := ⟨row 0x16 .asl .zpx (by decide), rfl⟩
theorem aslAbs (w : Addr) : Statement (.aslAbs w) := ⟨row 0x0E .asl .abs (by decide), rfl⟩
theorem aslAbsx (w : Addr) : Statement (.aslAbsx w) := ⟨row 0x1E .asl .absx (by decide), rfl⟩
theorem lsrAcc : Statement .lsrAcc := ⟨row 0x4A .lsr .acc (by decide), rfl⟩
theorem lsrZp (b : Byte) : Statement (.lsrZp b) := ⟨row 0x46 .lsr .zp (by decide), rfl⟩
theorem lsrZpx (b : Byte) : Statement (.lsrZpx b) := ⟨row 0x56 .lsr .zpx (by decide), rfl⟩
theorem lsrAbs (w : Addr) : Statement (.lsrAbs w) := ⟨row 0x4E .lsr .abs (by decide), rfl⟩
theorem lsrAbsx (w : Addr) : Statement (.lsrAbsx w) := ⟨row 0x5E .lsr .absx (by decide), rfl⟩
theorem rolAcc : Statement .rolAcc := ⟨row 0x2A .rol .acc (by decide), rfl⟩
theorem rolZp (b : Byte) : Statement (.rolZp b) := ⟨row 0x26 .rol .zp (by decide), rfl⟩
theorem rolZpx (b : Byte) : Statement (.rolZpx b) := ⟨row 0x36 .rol .zpx (by decide), rfl⟩
theorem rolAbs (w : Addr) : Statement (.rolAbs w) := ⟨row 0x2E .rol .abs (by decide), rfl⟩
theorem rolAbsx (w : Addr) : Statement (.rolAbsx w) := ⟨row 0x3E .rol .absx (by decide), rfl⟩
theorem rorAcc : Statement .rorAcc := ⟨row 0x6A .ror .acc (by decide), rfl⟩
theorem rorZp (b : Byte) : Statement (.rorZp b) := ⟨row 0x66 .ror .zp (by decide), rfl⟩
theorem rorZpx (b : Byte) : Statement (.rorZpx b) := ⟨row 0x76 .ror .zpx (by decide), rfl⟩
theorem rorAbs (w : Addr) : Statement (.rorAbs w) := ⟨row 0x6E .ror .abs (by decide), rfl⟩
theorem rorAbsx (w : Addr) : Statement (.rorAbsx w) := ⟨row 0x7E .ror .absx (by decide), rfl⟩
theorem bpl (d : Int) : Statement (.bpl d) := ⟨row 0x10 .bpl .rel (by decide), rfl⟩
theorem bmi (d : Int) : Statement (.bmi d) := ⟨row 0x30 .bmi .rel (by decide), rfl⟩
theorem bvc (d : Int) : Statement (.bvc d) := ⟨row 0x50 .bvc .rel (by decide), rfl⟩
theorem bvs (d : Int) : Statement (.bvs d) := ⟨row 0x70 .bvs .rel (by decide), rfl⟩
theorem bcc (d : Int) : Statement (.bcc d) := ⟨row 0x90 .bcc .rel (by decide), rfl⟩
theorem bcs (d : Int) : Statement (.bcs d) := ⟨row 0xB0 .bcs .rel (by decide), rfl⟩
theorem bne (d : Int) : Statement (.bne d) := ⟨row 0xD0 .bne .rel (by decide), rfl⟩
theorem beq (d : Int) : Statement (.beq d) := ⟨row 0xF0 .beq .rel (by decide), rfl⟩
theorem jmpAbs (w : Addr) : Statement (.jmpAbs w) := ⟨row 0x4C .jmp .abs (by decide), rfl⟩
theorem jmpInd (w : Addr) : Statement (.jmpInd w) := ⟨row 0x6C .jmp .ind (by decide), rfl⟩
theorem jsr (w : Addr) : Statement (.jsr w) := ⟨row 0x20 .jsr .abs (by decide), rfl⟩
theorem rts : Statement .rts := ⟨row 0x60 .rts .imp (by decide), rfl⟩
theorem rti : Statement .rti := ⟨row 0x40 .rti .imp (by decide), rfl⟩
theorem brk : Statement .brk := ⟨row 0x00 .brk .imp (by decide), rfl⟩
theorem nop : Statement .nop := ⟨row 0xEA .nop .imp (by decide), rfl⟩
theorem clc : Statement .clc := ⟨row 0x18 .clc .imp (by decide), rfl⟩
theorem sec : Statement .sec := ⟨row 0x38 .sec .imp (by decide), rfl⟩
theorem cli : Statement .cli := ⟨row 0x58 .cli .imp (by decide), rfl⟩
theorem sei : Statement .sei := ⟨row 0x78 .sei .imp (by decide), rfl⟩
theorem cld : Statement .cld := ⟨row 0xD8 .cld .imp (by decide), rfl⟩
theorem sed : Statement .sed := ⟨row 0xF8 .sed .imp (by decide), rfl⟩
theorem clv : Statement .clv := ⟨row 0xB8 .clv .imp (by decide), rfl⟩

end Sys2Proof.Laws.TableRow
end

