-- ==== Sys2Proof/Laws/Exec.lean ====
section
/-! SUPPORT. What `exec` does, said once for all instructions: the address phase, the execute phase of the operation, the
table's cycles (30_encoding R101 to R103). Statements about an instruction start from `exec_phase` or `exec_branch`. -/

namespace Sys2Proof.Machine

/-- The execute phase of a read-modify-write instruction. -/
def modifyBody (f : Byte → Byte → Byte × Byte) (o : Operand) (ea : Option Addr) (s : State) : State :=
  (storeOperand o ea (f (loadOperand o ea s).1 (loadOperand o ea s).2.p).1 (loadOperand o ea s).2).setP
    (f (loadOperand o ea s).1 (loadOperand o ea s).2.p).2

/-- The execute phase of an operation on operand `o` at effective address `ea`; a branch has its own shape. -/
def phase (op : Op) (o : Operand) (ea : Option Addr) (s : State) : State :=
  match op with
  | .lda => loadBody State.setA (loadOperand o ea s).1 (loadOperand o ea s).2
  | .ldx => loadBody State.setX (loadOperand o ea s).1 (loadOperand o ea s).2
  | .ldy => loadBody State.setY (loadOperand o ea s).1 (loadOperand o ea s).2
  | .and => logicBody (fun a m => a &&& m) (loadOperand o ea s).1 (loadOperand o ea s).2
  | .ora => logicBody (fun a m => a ||| m) (loadOperand o ea s).1 (loadOperand o ea s).2
  | .eor => logicBody (fun a m => a ^^^ m) (loadOperand o ea s).1 (loadOperand o ea s).2
  | .bit => bitBody (loadOperand o ea s).1 (loadOperand o ea s).2
  | .adc => adcBody (loadOperand o ea s).1 (loadOperand o ea s).2
  | .sbc => sbcBody (loadOperand o ea s).1 (loadOperand o ea s).2
  | .cmp => compareBody State.a (loadOperand o ea s).1 (loadOperand o ea s).2
  | .cpx => compareBody State.x (loadOperand o ea s).1 (loadOperand o ea s).2
  | .cpy => compareBody State.y (loadOperand o ea s).1 (loadOperand o ea s).2
  | .sta => storeOperand o ea (State.a s) s
  | .stx => storeOperand o ea (State.x s) s
  | .sty => storeOperand o ea (State.y s) s
  | .inc => modifyBody incValue o ea s
  | .dec => modifyBody decValue o ea s
  | .asl => modifyBody aslValue o ea s
  | .lsr => modifyBody lsrValue o ea s
  | .rol => modifyBody rolValue o ea s
  | .ror => modifyBody rorValue o ea s
  | .tax => transferBody State.setX State.a s
  | .tay => transferBody State.setY State.a s
  | .tsx => transferBody State.setX State.sp s
  | .txa => transferBody State.setA State.x s
  | .txs => s.setSp s.x
  | .tya => transferBody State.setA State.y s
  | .pha => push s.a s
  | .php => push (pushedWithBreak s.p) s
  | .pla => pullA s
  | .plp => pullP s
  | .inx => stepRegister State.x State.setX incValue s
  | .iny => stepRegister State.y State.setY incValue s
  | .dex => stepRegister State.x State.setX decValue s
  | .dey => stepRegister State.y State.setY decValue s
  | .rts => rtsBody s
  | .rti => returnFromInterrupt s
  | .brk => brkBody s
  | .nop => s
  | .clc => s.setFlag .c false
  | .sec => s.setFlag .c true
  | .cli => s.setFlag .i false
  | .sei => s.setFlag .i true
  | .cld => s.setFlag .d false
  | .sed => s.setFlag .d true
  | .clv => s.setFlag .v false
  | .jmp => jumpTo ea s
  | .jsr => jsrBody ea s
  | .bpl => s
  | .bmi => s
  | .bvc => s
  | .bvs => s
  | .bcc => s
  | .bcs => s
  | .bne => s
  | .beq => s

/-- The condition of a branch; `none` for every other operation (44_control_flow R201 to R208). -/
def branchCond (op : Op) (p : Byte) : Option Bool :=
  match op with
  | .bpl => some (!getFlag p .n)
  | .bmi => some (getFlag p .n)
  | .bvc => some (!getFlag p .v)
  | .bvs => some (getFlag p .v)
  | .bcc => some (!getFlag p .c)
  | .bcs => some (getFlag p .c)
  | .bne => some (!getFlag p .z)
  | .beq => some (getFlag p .z)
  | .lda => none
  | .ldx => none
  | .ldy => none
  | .and => none
  | .ora => none
  | .eor => none
  | .bit => none
  | .adc => none
  | .sbc => none
  | .cmp => none
  | .cpx => none
  | .cpy => none
  | .sta => none
  | .stx => none
  | .sty => none
  | .inc => none
  | .dec => none
  | .asl => none
  | .lsr => none
  | .rol => none
  | .ror => none
  | .tax => none
  | .tay => none
  | .tsx => none
  | .txa => none
  | .txs => none
  | .tya => none
  | .pha => none
  | .php => none
  | .pla => none
  | .plp => none
  | .inx => none
  | .iny => none
  | .dex => none
  | .dey => none
  | .rts => none
  | .rti => none
  | .brk => none
  | .nop => none
  | .clc => none
  | .sec => none
  | .cli => none
  | .sei => none
  | .cld => none
  | .sed => none
  | .clv => none
  | .jmp => none
  | .jsr => none

/-- Every instruction but a branch: address phase, execute phase, the table's cycles. -/
theorem exec_phase (i : Instr) (s : State) (h : branchCond i.op s.p = none) :
    exec i s = .next ((phase i.op i.operand (effAddr i s) (addressedState i s)).charge (tableCycles i s)) := by
  have key : ∀ base pen, tableRow i.opcode = some ⟨i.op, i.operand.mode, base, pen⟩ →
      exec i s = runForm i.operand base pen (phase i.op i.operand) s →
      exec i s = .next ((phase i.op i.operand (effAddr i s) (addressedState i s)).charge (tableCycles i s)) := by
    intro base pen hr he
    rw [he]
    simp only [runForm, tableCycles, hr, effAddr, addressedState]
  cases i <;> first
    | (simp [branchCond, Instr.op] at h; done)
    | (refine key _ _ ?_ rfl; simp only [Instr.opcode, Instr.op, Instr.operand, Operand.mode]; decide)

/-- A branch: PC goes to the target where the condition holds, and the cycles of the common branch rule. -/
theorem exec_branch (i : Instr) (s : State) (c : Bool) (h : branchCond i.op s.p = some c) :
    ∃ d, i.operand = .rel d ∧ exec i s = runBranch d (fun _ => c) s := by
  cases i <;> first
    | (simp [branchCond, Instr.op] at h; done)
    | (simp only [branchCond, Instr.op, Option.some.injEq] at h; subst h; exact ⟨_, rfl, rfl⟩)

/-- The cycles of an instruction whose row takes no page-cross penalty. -/
theorem tableCycles_of_row (i : Instr) (s : State) (b : Nat)
    (h : (tableRow i.opcode).map (fun r => (r.base, r.penalty)) = some (b, false)) : tableCycles i s = b := by
  unfold tableCycles
  cases hr : tableRow i.opcode with
  | none => simp [hr] at h
  | some r => simp only [hr, Option.map_some, Option.some.injEq, Prod.mk.injEq] at h; simp [h]

end Sys2Proof.Machine
end

