-- ==== Sys2Proof/Laws/Closed.lean ====
section
/-! SUPPORT. What a step is made of, said once: an instruction, a fetch and an interrupt entry are register changes, bus
reads and bus writes in some order, and no register change clears bit 5 of P. So a property that these keep is kept by
every one of them (30_encoding R101, 10_state R26). -/

namespace Sys2Proof.Machine

/-- A property that register changes, bus reads and bus writes keep. -/
structure BusClosed (P : State → Prop) : Prop where
  regs : ∀ (s : State) (a x y sp p : Byte) (pc : Addr), (getFlag s.p .r = true → getFlag p .r = true) → P s →
    P { s with a := a, x := x, y := y, sp := sp, p := p, pc := pc }
  note : ∀ (s : State) (w : Option (Addr × Access)), P s → P { s with watchHit := w }
  read : ∀ (a : Addr) (s : State), P s → P (busRead a s).2
  write : ∀ (a : Addr) (v : Byte) (s : State), P s → P (busWrite a v s)

/-- A property that the cycle counter and the last result play no part in. -/
def FreeOfResult (P : State → Prop) : Prop := ∀ (s : State) (n : Nat) (r : HostResult), P s → P { s with cycles := n, result := r }

/-! ## Bit 5 of P -/

theorem setNZ_r (p v : Byte) : getFlag (setNZ p v) .r = getFlag p .r := by simp [getFlag_setNZ]

theorem setFlag_r (p : Byte) (f : Flag) (b : Bool) (h : f ≠ .r) : getFlag (setFlag p f b) .r = getFlag p .r := by
  simp [getFlag_setFlag, Ne.symm h]

theorem addWithCarry_r (a m p : Byte) : getFlag (addWithCarry a m p).2 .r = getFlag p .r := by
  simp [addWithCarry, setNZ_r, setFlag_r]

theorem compareFlags_r (r m p : Byte) : getFlag (compareFlags r m p) .r = getFlag p .r := by
  simp [compareFlags, setNZ_r, setFlag_r]

theorem bitFlags_r (a m p : Byte) : getFlag (bitFlags a m p) .r = getFlag p .r := by simp [bitFlags, setFlag_r]

theorem shifted_r (v : Byte) (b : Bool) (p : Byte) : getFlag (shifted v b p).2 .r = getFlag p .r := by
  simp [shifted, setNZ_r, setFlag_r]

theorem loadedStatus_r (v : Byte) : getFlag (loadedStatus v) .r = true := by
  simp only [getFlag, loadedStatus, Flag.bit, BitVec.getLsbD_or, Bool.or_eq_true]
  exact Or.inr (by decide)

/-! ## Registers -/

section
variable {P : State → Prop} (h : BusClosed P)
include h

theorem BusClosed.setA (s : State) (v : Byte) (hs : P s) : P (s.setA v) := h.regs s v s.x s.y s.sp s.p s.pc id hs

theorem BusClosed.setX (s : State) (v : Byte) (hs : P s) : P (s.setX v) := h.regs s s.a v s.y s.sp s.p s.pc id hs

theorem BusClosed.setY (s : State) (v : Byte) (hs : P s) : P (s.setY v) := h.regs s s.a s.x v s.sp s.p s.pc id hs

theorem BusClosed.setSp (s : State) (v : Byte) (hs : P s) : P (s.setSp v) := h.regs s s.a s.x s.y v s.p s.pc id hs

theorem BusClosed.setPc (s : State) (v : Addr) (hs : P s) : P (s.setPc v) := h.regs s s.a s.x s.y s.sp s.p v id hs

theorem BusClosed.setP (s : State) (p : Byte) (hp : getFlag s.p .r = true → getFlag p .r = true) (hs : P s) :
    P (s.setP p) := h.regs s s.a s.x s.y s.sp p s.pc hp hs

theorem BusClosed.setNZ (s : State) (v : Byte) (hs : P s) : P (s.setNZ v) :=
  h.setP s _ (by rw [setNZ_r]; exact id) hs

theorem BusClosed.setFlag (s : State) (f : Flag) (b : Bool) (hf : f ≠ .r) (hs : P s) : P (s.setFlag f b) :=
  h.setP s _ (by rw [setFlag_r _ _ _ hf]; exact id) hs

theorem BusClosed.advance (s : State) (o : Operand) (hs : P s) : P (s.advance o) := h.setPc s _ hs

/-! ## Accesses -/

theorem BusClosed.read16 (a : Addr) (s : State) (hs : P s) : P (busRead16 a s).2 := h.read _ _ (h.read _ _ hs)

theorem BusClosed.push (v : Byte) (s : State) (hs : P s) : P (push v s) := h.setSp _ _ (h.write _ _ _ hs)

theorem BusClosed.pop (s : State) (hs : P s) : P (pop s).2 := h.read _ _ (h.setSp _ _ hs)

theorem BusClosed.pushWord (w : Addr) (s : State) (hs : P s) : P (pushWord w s) := h.push _ _ (h.push _ _ hs)

theorem BusClosed.popWord (s : State) (hs : P s) : P (popWord s).2 := h.pop _ (h.pop _ hs)

theorem BusClosed.noteAccess (a : Addr) (k : Access) (s : State) (hs : P s) : P (s.noteAccess a k) := by
  unfold State.noteAccess
  split
  · exact h.note s _ hs
  · exact hs

theorem BusClosed.loadOperand (o : Operand) (ea : Option Addr) (s : State) (hs : P s) : P (loadOperand o ea s).2 := by
  have hd : ∀ a, P (dataRead a s).2 := fun a => h.read _ _ (h.noteAccess a .read s hs)
  cases o <;> cases ea <;> first | exact hs | exact hd _

theorem BusClosed.storeOperand (o : Operand) (ea : Option Addr) (v : Byte) (s : State) (hs : P s) :
    P (storeOperand o ea v s) := by
  have hd : ∀ a, P (dataWrite a v s) := fun a => h.write _ _ _ (h.noteAccess a .write s hs)
  cases o <;> cases ea <;> first | exact h.setA _ _ hs | exact hs | exact hd _

theorem BusClosed.resolve (o : Operand) (s : State) (hs : P s) : P (resolve o s).2 := by
  cases o <;> first
    | exact hs
    | exact h.read _ _ (h.read _ _ hs)

theorem BusClosed.addressed (o : Operand) (s : State) (hs : P s) : P (addressed o s).2 :=
  h.resolve _ _ (h.advance _ _ hs)

/-! ## Execute phases -/

theorem BusClosed.modifyBody (f : Byte → Byte → Byte × Byte) (hf : ∀ m p, getFlag (f m p).2 .r = getFlag p .r)
    (o : Operand) (ea : Option Addr) (s : State) (hs : P s) : P (modifyBody f o ea s) := by
  refine h.setP _ _ ?_ (h.storeOperand o ea _ _ (h.loadOperand o ea s hs))
  rw [storeOperand_p, hf]
  exact id

theorem BusClosed.stepRegister (get : State → Byte) (set : State → Byte → State) (f : Byte → Byte → Byte × Byte)
    (hf : ∀ m p, getFlag (f m p).2 .r = getFlag p .r) (hset : ∀ s v, P s → P (set s v))
    (hp : ∀ s v, (set s v).p = s.p) (s : State) (hs : P s) : P (stepRegister get set f s) := by
  refine h.setP _ _ ?_ (hset _ _ hs)
  rw [hp, hf]
  exact id

theorem BusClosed.adcBody (m : Byte) (s : State) (hs : P s) : P (adcBody m s) :=
  h.setP (s.setA (addWithCarry s.a m s.p).1) (addWithCarry s.a m s.p).2
    (fun hr => (addWithCarry_r s.a m s.p).trans hr) (h.setA _ _ hs)

theorem BusClosed.jumpTo (ea : Option Addr) (s : State) (hs : P s) : P (jumpTo ea s) := by
  cases ea with
  | none => exact hs
  | some a => exact h.setPc _ _ hs

theorem BusClosed.enterInterrupt (vec ret : Addr) (v : Byte) (s : State) (hs : P s) : P (enterInterrupt vec ret v s) :=
  h.setPc _ _ (h.read16 _ _ (h.setFlag _ .i true (by decide) (h.push _ _ (h.pushWord _ _ hs))))

theorem BusClosed.returnFromInterrupt (s : State) (hs : P s) : P (returnFromInterrupt s) :=
  h.setPc _ _ (h.popWord _ (h.setP _ _ (fun _ => loadedStatus_r _) (h.pop _ hs)))

/-- Every execute phase keeps it. -/
theorem BusClosed.phase (op : Op) (o : Operand) (ea : Option Addr) (s : State) (hs : P s) : P (phase op o ea s) := by
  have hl := h.loadOperand o ea s hs
  have inc : ∀ m p, getFlag (incValue m p).2 .r = getFlag p .r := fun m p => setNZ_r p (m + 1)
  have dec : ∀ m p, getFlag (decValue m p).2 .r = getFlag p .r := fun m p => setNZ_r p (m - 1)
  cases op with
  | lda => exact h.setNZ _ _ (h.setA _ _ hl)
  | ldx => exact h.setNZ _ _ (h.setX _ _ hl)
  | ldy => exact h.setNZ _ _ (h.setY _ _ hl)
  | and => exact h.setNZ _ _ (h.setA _ _ hl)
  | ora => exact h.setNZ _ _ (h.setA _ _ hl)
  | eor => exact h.setNZ _ _ (h.setA _ _ hl)
  | bit => exact h.setP _ _ (fun hr => (bitFlags_r _ _ _).trans hr) hl
  | adc => exact h.adcBody _ _ hl
  | sbc => exact h.adcBody _ _ hl
  | cmp => exact h.setP _ _ (fun hr => (compareFlags_r _ _ _).trans hr) hl
  | cpx => exact h.setP _ _ (fun hr => (compareFlags_r _ _ _).trans hr) hl
  | cpy => exact h.setP _ _ (fun hr => (compareFlags_r _ _ _).trans hr) hl
  | sta => exact h.storeOperand _ _ _ _ hs
  | stx => exact h.storeOperand _ _ _ _ hs
  | sty => exact h.storeOperand _ _ _ _ hs
  | inc => exact h.modifyBody _ inc _ _ _ hs
  | dec => exact h.modifyBody _ dec _ _ _ hs
  | asl => exact h.modifyBody _ (fun m p => shifted_r _ _ p) _ _ _ hs
  | lsr => exact h.modifyBody _ (fun m p => shifted_r _ _ p) _ _ _ hs
  | rol => exact h.modifyBody _ (fun m p => shifted_r _ _ p) _ _ _ hs
  | ror => exact h.modifyBody _ (fun m p => shifted_r _ _ p) _ _ _ hs
  | tax => exact h.setNZ _ _ (h.setX _ _ hs)
  | tay => exact h.setNZ _ _ (h.setY _ _ hs)
  | tsx => exact h.setNZ _ _ (h.setX _ _ hs)
  | txa => exact h.setNZ _ _ (h.setA _ _ hs)
  | tya => exact h.setNZ _ _ (h.setA _ _ hs)
  | txs => exact h.setSp _ _ hs
  | pha => exact h.push _ _ hs
  | php => exact h.push _ _ hs
  | pla => exact h.setNZ _ _ (h.setA _ _ (h.pop _ hs))
  | plp => exact h.setP _ _ (fun _ => loadedStatus_r _) (h.pop _ hs)
  | inx => exact h.stepRegister _ _ _ inc h.setX (fun _ _ => rfl) _ hs
  | iny => exact h.stepRegister _ _ _ inc h.setY (fun _ _ => rfl) _ hs
  | dex => exact h.stepRegister _ _ _ dec h.setX (fun _ _ => rfl) _ hs
  | dey => exact h.stepRegister _ _ _ dec h.setY (fun _ _ => rfl) _ hs
  | rts => exact h.setPc _ _ (h.popWord _ hs)
  | rti => exact h.returnFromInterrupt _ hs
  | brk => exact h.enterInterrupt Config.vecIrq (s.pc + 1) (pushedWithBreak s.p) s hs
  | nop => exact hs
  | clc => exact h.setFlag _ _ _ (by decide) hs
  | sec => exact h.setFlag _ _ _ (by decide) hs
  | cli => exact h.setFlag _ _ _ (by decide) hs
  | sei => exact h.setFlag _ _ _ (by decide) hs
  | cld => exact h.setFlag _ _ _ (by decide) hs
  | sed => exact h.setFlag _ _ _ (by decide) hs
  | clv => exact h.setFlag _ _ _ (by decide) hs
  | jmp => exact h.jumpTo _ _ hs
  | jsr => exact h.jumpTo _ _ (h.pushWord _ _ hs)
  | bpl => exact hs
  | bmi => exact hs
  | bvc => exact hs
  | bvs => exact hs
  | bcc => exact hs
  | bcs => exact hs
  | bne => exact hs
  | beq => exact hs

/-- Every instruction keeps it. -/
theorem BusClosed.exec (hc : FreeOfResult P) (i : Instr) (s t : State) (he : exec i s = .next t) (hs : P s) : P t := by
  cases hb : branchCond i.op s.p with
  | none =>
    rw [exec_phase i s hb] at he
    cases he
    exact hc _ _ _ (h.phase _ _ _ _ (h.addressed _ _ hs))
  | some c =>
    obtain ⟨d, _, hr⟩ := exec_branch i s c hb
    rw [hr] at he
    cases c
    · cases he
      exact hc _ _ _ (h.advance _ (.rel d) hs)
    · cases he
      exact hc _ _ _ (h.jumpTo _ _ (h.advance _ (.rel d) hs))

/-! ## Fetch, entries, resets -/

theorem BusClosed.fetchOperand (pc0 : Addr) (k l : Nat) (s : State) (hs : P s) : P (fetchOperand pc0 k l s).2 := by
  unfold Machine.fetchOperand
  split
  · exact h.read _ _ hs
  · exact hs

/-- A fetch keeps it. -/
theorem BusClosed.fetch (s : State) (hs : P s) : P (fetch s).2 := by
  have h0 := h.read s.pc s hs
  unfold Machine.fetch
  simp only
  split
  · exact h0
  · split <;> exact h.fetchOperand _ _ _ _ (h.fetchOperand _ _ _ _ h0)

/-- An accepted hardware entry keeps it. -/
theorem BusClosed.hardwareEntry (hc : FreeOfResult P) (vec : Addr) (s : State) (hs : P s) : P (hardwareEntry vec s) :=
  hc _ _ (Machine.enterInterrupt vec s.pc (pushedByInterrupt s.p) s).result (h.enterInterrupt _ _ _ _ hs)

/-- `requestIrq()` keeps it. -/
theorem BusClosed.requestIrq (hc : FreeOfResult P) (s : State) (hs : P s) : P (requestIrq s) := by
  unfold Machine.requestIrq
  split
  · exact hc s s.cycles _ hs
  · exact hc _ (Machine.hardwareEntry Config.vecIrq s).cycles _ (h.hardwareEntry hc _ _ hs)

end

end Sys2Proof.Machine
end

