-- ==== Sys2Proof/Laws/Decode.lean ====
section
/-! SUPPORT. The instruction table, the decoder and the fetch: what a table row and an operand give, what an instruction
decoded from bytes is, and the two outcomes of a fetch (30_encoding R90, R101, R104, R105). -/

namespace Sys2Proof.Machine

/-- The row of an instruction's opcode byte, and the instruction that row and operand give back. -/
theorem row_of_instr (i : Instr) : ∃ b p,
    tableRow i.opcode = some ⟨i.op, i.operand.mode, b, p⟩ ∧ Instr.ofForm i.op i.operand = some i := by
  have h : (tableRow i.opcode).map (fun r => (r.op, r.mode)) = some (i.op, i.operand.mode) := by
    cases i <;> (simp only [Instr.opcode, Instr.op, Instr.operand, Operand.mode]; decide)
  have h2 : Instr.ofForm i.op i.operand = some i := by cases i <;> rfl
  cases hr : tableRow i.opcode with
  | none => simp [hr] at h
  | some r =>
    obtain ⟨a, b, c, d⟩ := r
    simp only [hr, Option.map_some, Option.some.injEq, Prod.mk.injEq] at h
    exact ⟨c, d, by rw [h.1, h.2], h2⟩

/-- The instruction of an operation and an operand has that operation and that operand. -/
theorem ofForm_some (op : Op) (o : Operand) (i : Instr) (h : Instr.ofForm op o = some i) :
    i.op = op ∧ i.operand = o := by
  cases op <;> cases o <;> first
    | (cases h; done)
    | (cases h; exact ⟨rfl, rfl⟩)

/-- The opcode byte of a form depends on its mode only. -/
theorem ofForm_opcode (op : Op) (o o' : Operand) (hm : o.mode = o'.mode) :
    (Instr.ofForm op o).map Instr.opcode = (Instr.ofForm op o').map Instr.opcode := by
  cases o <;> cases o' <;> first
    | (cases hm; done)
    | (cases op <;> rfl)

theorem operandOf_mode (m : Mode) (a b : Byte) : (operandOf m a b).mode = m := by cases m <;> rfl

/-- The row of an opcode byte gives an instruction with that opcode byte. -/
def rowGivesBack (op : Byte) : Bool :=
  match tableRow op with
  | none => true
  | some r => decide ((Instr.ofForm r.op (operandOf r.mode 0 0)).map Instr.opcode = some op)

theorem rowGivesBack_all (op : Byte) : rowGivesBack op = true := by
  have h : ∀ q r : Fin 16, rowGivesBack (BitVec.ofNat 8 (q.val * 16 + r.val)) = true := by decide
  have hq : op.toNat / 16 < 16 := by have := op.isLt; omega
  have hr : op.toNat % 16 < 16 := Nat.mod_lt _ (by decide)
  have e : op.toNat / 16 * 16 + op.toNat % 16 = op.toNat := by omega
  have h1 := h ⟨_, hq⟩ ⟨_, hr⟩
  simp only [e, BitVec.ofNat_toNat, BitVec.setWidth_eq] at h1
  exact h1

/-- An opcode byte decodes, whatever its operand bytes, exactly when it has a row. -/
theorem decodeOp_none (op b1 b2 : Byte) : decodeOp op b1 b2 = none ↔ tableRow op = none := by
  have h := rowGivesBack_all op
  unfold rowGivesBack at h
  unfold decodeOp
  cases hr : tableRow op with
  | none => simp
  | some r =>
    simp only [hr, decide_eq_true_eq] at h
    have hm := ofForm_opcode r.op (operandOf r.mode b1 b2) (operandOf r.mode 0 0) (by rw [operandOf_mode, operandOf_mode])
    rw [h] at hm
    simp only [reduceCtorEq, iff_false]
    intro e
    rw [e] at hm
    cases hm

/-- What an opcode byte and operand bytes decode to has that opcode byte and those operand bytes. -/
theorem decodeOp_some (op b1 b2 : Byte) (i : Instr) (h : decodeOp op b1 b2 = some i) :
    i.opcode = op ∧ ∃ r, tableRow op = some r ∧ i.operand = operandOf r.mode b1 b2 := by
  have hi := rowGivesBack_all op
  unfold rowGivesBack at hi
  unfold decodeOp at h
  cases hr : tableRow op with
  | none => simp [hr] at h
  | some r =>
    simp only [hr, decide_eq_true_eq] at h hi
    have hm := ofForm_opcode r.op (operandOf r.mode b1 b2) (operandOf r.mode 0 0) (by rw [operandOf_mode, operandOf_mode])
    rw [hi, h] at hm
    exact ⟨by simpa using hm, r, rfl, (ofForm_some _ _ _ h).2⟩

theorem fetchOperand_devices (pc0 : Addr) (k l : Nat) (s : State) : SameButDevices s (fetchOperand pc0 k l s).2 := by
  unfold fetchOperand
  split
  · exact busRead_sameButDevices _ _
  · exact SameButDevices.refl _

/-- The two outcomes of a fetch: an unmapped opcode byte after one bus read, or an instruction with its log entry; either
way nothing but the devices has changed. -/
theorem fetch_outcomes (s : State) :
    (tableRow (busRead s.pc s).1 = none ∧ fetch s = (.unmapped (busRead s.pc s).1, (busRead s.pc s).2)) ∨
      ∃ i s1, tableRow (busRead s.pc s).1 ≠ none ∧ fetch s = (.instr i (logEntryOf i s.pc), s1) ∧
        SameButDevices s s1 := by
  have hsb := busRead_sameButDevices s.pc s
  unfold fetch
  simp only
  cases hr : tableRow (busRead s.pc s).1 with
  | none => exact .inl ⟨rfl, rfl⟩
  | some r =>
    right
    simp only
    have f1 := fetchOperand_devices s.pc 1 r.mode.length (busRead s.pc s).2
    have c1 : 1 < r.mode.length → (fetchOperand s.pc 1 r.mode.length (busRead s.pc s).2).1.isSome = true := by
      intro h; simp [fetchOperand, h]
    have n1 : ¬ 1 < r.mode.length → (fetchOperand s.pc 1 r.mode.length (busRead s.pc s).2).1 = none := by
      intro h; simp [fetchOperand, h]
    generalize fetchOperand s.pc 1 r.mode.length (busRead s.pc s).2 = C at *
    have f2 := fetchOperand_devices s.pc 2 r.mode.length C.2
    have c2 : 2 < r.mode.length → (fetchOperand s.pc 2 r.mode.length C.2).1.isSome = true := by
      intro h; simp [fetchOperand, h]
    have n2 : ¬ 2 < r.mode.length → (fetchOperand s.pc 2 r.mode.length C.2).1 = none := by
      intro h; simp [fetchOperand, h]
    generalize fetchOperand s.pc 2 r.mode.length C.2 = D at *
    cases ho : decodeOp (busRead s.pc s).1 (C.1.getD 0) (D.1.getD 0) with
    | none => rw [decodeOp_none, hr] at ho; cases ho
    | some i =>
      obtain ⟨h1, r', hr', h2⟩ := decodeOp_some _ _ _ _ ho
      rw [hr] at hr'
      cases hr'
      refine ⟨i, D.2, by simp, ?_, hsb.trans (f1.trans f2)⟩
      have e : (⟨s.pc, (busRead s.pc s).1, C.1, D.1⟩ : LogEntry) = logEntryOf i s.pc := by
        unfold logEntryOf
        rw [h1, h2]
        generalize r.mode = m at *
        obtain ⟨c, cs⟩ := C
        obtain ⟨d, ds⟩ := D
        cases m <;> cases c <;> cases d <;> simp_all [Mode.length, operandOf, Operand.bytes]
      simp only [← e]

end Sys2Proof.Machine
end

