-- ==== Sys2Proof/Laws/Apu.lean ====
section
/-! SUPPORT. The APU's operations, said once each: the mirror, a register write, the trigger, the frame sequencer, and that
each keeps the ranges of 10_state R34 and R35. -/

namespace Sys2Proof.Machine

/-! ## The mirror and a register write -/

/-- The mirror after a write of one byte. -/
theorem Apu.reg_setReg (u : Apu) (i j : BitVec 5) (v : Byte) :
    (u.setReg i v).reg j = if j = i then v else u.reg j := by
  unfold Apu.setReg Apu.reg
  simp only [Vector.getElem_set]
  by_cases h : j = i
  · subst h; simp
  · rw [if_neg h, if_neg]
    intro e
    exact h (BitVec.eq_of_toNat_eq e.symm)

/-- A register write changes the mirror's one byte, no frame interrupt flag, and the DMC flag only at 0x15
(50_apu R250, R260). -/
theorem Apu.write_flags (t : Vector Byte 32) (u : Apu) (i : BitVec 5) (v : Byte) :
    (u.write t i v).regs = (u.setReg i v).regs ∧ (u.write t i v).frameIrq = u.frameIrq ∧
      (u.write t i v).dmcIrq = (if i = 0x15 then false else u.dmcIrq) := by
  unfold Apu.write
  simp only
  split
  · rename_i h
    have hi : i ≠ 0x15 := by intro e; subst e; simp at h
    rw [if_neg hi]
    unfold Apu.channelWrite
    simp only
    split <;> exact ⟨rfl, rfl, rfl⟩
  · split
    · exact ⟨rfl, rfl, rfl⟩
    · split
      · unfold Apu.strobeWrite; split <;> exact ⟨rfl, rfl, rfl⟩
      · exact ⟨rfl, rfl, rfl⟩

/-! ## The trigger and the frame sequencer -/

/-- The trigger adds one event and sets the trigger note, when it is invoked (50_apu R255). -/
theorem State.triggerIf_eq (s : State) (b : Bool) :
    s.triggerIf b =
      { s with events := (if b then [Event.irqTrigger] else []) ++ s.events, irqTrigger := s.irqTrigger || b } := by
  cases b
  · simp [State.triggerIf]
  · simp [State.triggerIf, State.triggerIrq, State.emit]

/-- A change of the mapper's state: the new state, and the trigger where it raises the line; nothing else. -/
theorem setMapper_eq (m : MapperState) (s : State) :
    s.setMapper m =
      { s with
        mapper := m
        events := (if !mapperIrq s.board s.mapper && mapperIrq s.board m then [Event.irqTrigger] else []) ++ s.events
        irqTrigger := s.irqTrigger || (!mapperIrq s.board s.mapper && mapperIrq s.board m) } := by
  unfold State.setMapper
  rw [State.triggerIf_eq]

/-- The vblank tick (50_apu R252, R254). -/
theorem Apu.vblank_eq (u : Apu) :
    u.vblank =
      ({ u with p1 := u.p1.tick, p2 := u.p2.tick, tri := u.tri.tick, noi := u.noi.tick,
                frameIrq := u.frameIrq || !u.frameInhibited }, !u.frameInhibited) := by
  have h : ∀ w : Apu, w.regs = u.regs → w.frameInhibited = u.frameInhibited := by
    intro w hw; unfold Apu.frameInhibited Apu.reg; simp only [hw]
  unfold Apu.vblank
  simp only
  rw [h { u with p1 := u.p1.tick, p2 := u.p2.tick, tri := u.tri.tick, noi := u.noi.tick } rfl]
  cases u.frameInhibited <;> simp

/-- The frame sequencer in one piece: the DMC step, the vblank tick where it is due, one trigger for each interrupt
(50_apu R252 to R255). -/
theorem onHblank_eq (n : Nat) (s : State) :
    onHblank n s =
      let d := s.apu.dmc.scanline
      let due := decide (n = s.params.vblankScanline)
      let raised := due && !s.apu.frameInhibited
      { s with
        apu :=
          { s.apu with
            dmc := d.1
            dmcIrq := s.apu.dmcIrq || d.2
            p1 := if due then s.apu.p1.tick else s.apu.p1
            p2 := if due then s.apu.p2.tick else s.apu.p2
            tri := if due then s.apu.tri.tick else s.apu.tri
            noi := if due then s.apu.noi.tick else s.apu.noi
            frameIrq := s.apu.frameIrq || raised }
        events := (if raised then [Event.irqTrigger] else []) ++ (if d.2 then [Event.irqTrigger] else []) ++ s.events
        irqTrigger := s.irqTrigger || d.2 || raised } := by
  unfold onHblank
  simp only [Apu.dmcScanline, State.triggerIf_eq]
  by_cases h : n = s.params.vblankScanline
  · rw [if_pos h]
    simp only [Apu.vblank_eq, decide_eq_true h, Bool.true_and, if_true, List.append_assoc]
    rfl
  · rw [if_neg h]
    simp [h]

/-! ## The ranges -/

theorem lengthEntry_le (t : Vector Byte 32) (i : BitVec 5) : lengthEntry t i ≤ 255 := by
  unfold lengthEntry
  split
  · decide
  · have := (t[i.toNat]'i.isLt).isLt; omega

theorem Envelope.bounded_step (e : Envelope) (g : ChanRegs) (h : e.bounded = true) : (e.step g).bounded = true := by
  simp only [Envelope.bounded, Bool.and_eq_true, decide_eq_true_eq] at h ⊢
  have hn : g.nibble ≤ 15 := by unfold ChanRegs.nibble; omega
  unfold Envelope.step
  split
  · exact ⟨hn, Nat.le_refl _⟩
  · split
    · refine ⟨hn, ?_⟩
      dsimp only
      split
      · omega
      · split <;> omega
    · exact ⟨by dsimp only; omega, h.2⟩

theorem Envelope.bounded_arm (e : Envelope) (v : Byte) (h : e.bounded = true) : (e.arm v).bounded = true := by
  unfold Envelope.arm
  split
  · exact h
  · simp only [Envelope.bounded, Bool.and_eq_true, decide_eq_true_eq]; omega

theorem lengthAfter_le (l d : Nat) (b : Bool) : lengthAfter l d b ≤ l := by
  unfold lengthAfter; split <;> omega

theorem Pulse.bounded_write (t : Vector Byte 32) (c : Pulse) (r : BitVec 2) (v : Byte) (h : c.bounded = true) :
    (c.write t r v).bounded = true := by
  simp only [Pulse.bounded, Bool.and_eq_true, decide_eq_true_eq] at h
  have ha := c.env.bounded_arm v h.1.2
  have hl := lengthEntry_le t (lengthIndex v)
  unfold Pulse.write
  simp only
  split <;> simp only [Pulse.bounded, Bool.and_eq_true, decide_eq_true_eq]
  · exact ⟨⟨h.1.1, ha⟩, h.2⟩
  · exact ⟨⟨hl, h.1.2⟩, h.2⟩
  · exact h

theorem Noise.bounded_write (t : Vector Byte 32) (c : Noise) (r : BitVec 2) (v : Byte) (h : c.bounded = true) :
    (c.write t r v).bounded = true := by
  simp only [Noise.bounded, Bool.and_eq_true, decide_eq_true_eq] at h
  have ha := c.env.bounded_arm v h.2
  have hl := lengthEntry_le t (lengthIndex v)
  unfold Noise.write
  simp only
  split <;> simp only [Noise.bounded, Bool.and_eq_true, decide_eq_true_eq]
  · exact ⟨h.1, ha⟩
  · exact ⟨hl, h.2⟩
  · exact h

theorem Triangle.bounded_write (c : Triangle) (r : BitVec 2) (v : Byte) (h : c.bounded = true) :
    (c.write r v).bounded = true := by
  simp only [Triangle.bounded, decide_eq_true_eq] at h
  unfold Triangle.write
  simp only
  split <;> simp only [Triangle.bounded, decide_eq_true_eq]
  · omega
  · exact h

theorem Dmc.primeLength_le (c : Dmc) : c.primeLength ≤ 128 := by
  have := c.regs.r3.isLt
  unfold Dmc.primeLength
  omega

theorem Dmc.bounded_enable (c : Dmc) (e : Bool) (h : c.bounded = true) : (c.enable e).bounded = true := by
  have hp := c.primeLength_le
  unfold Dmc.enable
  split
  · split
    · simpa [Dmc.bounded] using hp
    · exact h
  · rfl

theorem Dmc.bounded_scanline (c : Dmc) (h : c.bounded = true) : (c.scanline.1).bounded = true := by
  have hp := c.primeLength_le
  simp only [Dmc.bounded, decide_eq_true_eq] at h ⊢
  unfold Dmc.scanline
  split
  · exact h
  · split
    · split
      · exact hp
      · exact Nat.zero_le _
    · dsimp only; omega

theorem Pulse.bounded_sweep (c : Pulse) (h : c.bounded = true) : c.sweepStep.bounded = true := by
  simp only [Pulse.bounded, Bool.and_eq_true, decide_eq_true_eq] at h
  unfold Pulse.sweepStep
  split
  · simp only [Pulse.bounded, Bool.and_eq_true, decide_eq_true_eq]; exact h
  · split
    · dsimp only
      split <;> simp only [Pulse.bounded, Bool.and_eq_true, decide_eq_true_eq] <;> exact ⟨h.1, Nat.zero_le _⟩
    · simp only [Pulse.bounded, Bool.and_eq_true, decide_eq_true_eq]
      exact ⟨h.1, by omega⟩

theorem Pulse.bounded_tick (c : Pulse) (h : c.bounded = true) : c.tick.bounded = true := by
  unfold Pulse.tick
  split
  · exact h
  · simp only [Pulse.bounded, Bool.and_eq_true, decide_eq_true_eq] at h
    have hl := lengthAfter_le c.length 4 c.regs.halt
    refine Pulse.bounded_sweep _ ?_
    simp only [Pulse.bounded, Bool.and_eq_true, decide_eq_true_eq]
    exact ⟨⟨by omega, c.env.bounded_step c.regs h.1.2⟩, h.2⟩

theorem Noise.bounded_tick (c : Noise) (h : c.bounded = true) : c.tick.bounded = true := by
  unfold Noise.tick
  split
  · exact h
  · simp only [Noise.bounded, Bool.and_eq_true, decide_eq_true_eq] at h ⊢
    have hl := lengthAfter_le c.length 1 c.regs.halt
    exact ⟨by omega, c.env.bounded_step c.regs h.2⟩

theorem Triangle.bounded_tick (c : Triangle) (h : c.bounded = true) : c.tick.bounded = true := by
  unfold Triangle.tick
  split
  · exact h
  · simp only [Triangle.bounded, decide_eq_true_eq] at h ⊢
    have hl := lengthAfter_le c.length 4 (c.regs.r0.getLsbD 7)
    omega

/-- A register write keeps the ranges. -/
theorem Apu.bounded_write (t : Vector Byte 32) (u : Apu) (i : BitVec 5) (v : Byte) (h : u.bounded = true) :
    (u.write t i v).bounded = true := by
  simp only [Apu.bounded, Bool.and_eq_true] at h
  obtain ⟨⟨⟨⟨⟨⟨h1, h2⟩, h3⟩, h4⟩, h5⟩, h6⟩, h7⟩ := h
  have he := Dmc.bounded_enable { u.dmc with enabled := v.getLsbD 4 } (v.getLsbD 4) h5
  unfold Apu.write
  simp only
  split
  · unfold Apu.channelWrite
    simp only
    split <;> simp only [Apu.bounded, Apu.setReg, Bool.and_eq_true]
    · exact ⟨⟨⟨⟨⟨⟨u.p1.bounded_write t _ v h1, h2⟩, h3⟩, h4⟩, h5⟩, h6⟩, h7⟩
    · exact ⟨⟨⟨⟨⟨⟨h1, u.p2.bounded_write t _ v h2⟩, h3⟩, h4⟩, h5⟩, h6⟩, h7⟩
    · exact ⟨⟨⟨⟨⟨⟨h1, h2⟩, u.tri.bounded_write _ v h3⟩, h4⟩, h5⟩, h6⟩, h7⟩
    · exact ⟨⟨⟨⟨⟨⟨h1, h2⟩, h3⟩, u.noi.bounded_write t _ v h4⟩, h5⟩, h6⟩, h7⟩
    · exact ⟨⟨⟨⟨⟨⟨h1, h2⟩, h3⟩, h4⟩, h5⟩, h6⟩, h7⟩
  · split
    · simp only [Apu.bounded, Apu.statusWrite, Apu.setReg, Bool.and_eq_true]
      exact ⟨⟨⟨⟨⟨⟨h1, h2⟩, h3⟩, h4⟩, he⟩, h6⟩, h7⟩
    · have hs : (u.setReg i v).bounded = true := by
        simp only [Apu.bounded, Apu.setReg, Bool.and_eq_true]
        exact ⟨⟨⟨⟨⟨⟨h1, h2⟩, h3⟩, h4⟩, h5⟩, h6⟩, h7⟩
      split
      · unfold Apu.strobeWrite; split
        · simp only [Apu.bounded, Apu.setReg, Bool.and_eq_true]
          exact ⟨⟨⟨⟨⟨⟨h1, h2⟩, h3⟩, h4⟩, h5⟩, h6⟩, h7⟩
        · exact hs
      · exact hs

/-- `onHblank` keeps the ranges. -/
theorem onHblank_bounded (n : Nat) (s : State) (h : s.apu.bounded = true) : (onHblank n s).apu.bounded = true := by
  rw [onHblank_eq]
  simp only [Apu.bounded, Bool.and_eq_true] at h ⊢
  obtain ⟨⟨⟨⟨⟨⟨h1, h2⟩, h3⟩, h4⟩, h5⟩, h6⟩, h7⟩ := h
  refine ⟨⟨⟨⟨⟨⟨?_, ?_⟩, ?_⟩, ?_⟩, s.apu.dmc.bounded_scanline h5⟩, h6⟩, h7⟩
  · split
    · exact s.apu.p1.bounded_tick h1
    · exact h1
  · split
    · exact s.apu.p2.bounded_tick h2
    · exact h2
  · split
    · exact s.apu.tri.bounded_tick h3
    · exact h3
  · split
    · exact s.apu.noi.bounded_tick h4
    · exact h4

/-- No two opposing directions stand in a legal mask (50_apu R283). -/
theorem padLegal_mask (mask : Byte) : padLegal (maskOpposing mask) = true := by revert mask; decide

/-- The draws of `apu.load` keep the ranges (log entry 16). -/
theorem Apu.bounded_loaded (u : Apu) (regs : Vector Byte 32) (n : Nat) (h : u.bounded = true) :
    (u.loaded regs n).bounded = true := by
  have d : ∀ top k, drawUpTo top k ≤ top := by
    intro top k; exact Nat.le_of_lt_succ (Nat.mod_lt _ (Nat.succ_pos top))
  simp only [Apu.bounded, Bool.and_eq_true] at h
  simp only [Apu.bounded, Apu.loaded, Pulse.bounded, Pulse.drawn, Triangle.bounded, Triangle.drawn, Noise.bounded,
    Noise.drawn, Dmc.bounded, Dmc.drawn, Envelope.bounded, Envelope.drawn, d, decide_true, Bool.and_true,
    h.1.2, h.2]

/-- Bus reads and writes keep the ranges. -/
theorem busRead_bounded (a : Addr) (s : State) (h : s.apu.bounded = true) : (busRead a s).2.apu.bounded = true := by
  have hm : ∀ m (s : State), (s.setMapper m).apu = s.apu := by
    intro m s; rw [setMapper_eq]
  unfold busRead
  split
  · exact h
  · exact h
  · unfold apuRead
    split
    · exact h
    · split
      · exact h
      · split <;> exact h
  · simp only [cartRead, hm]
    cases mapperResolve s.board a s.mapper <;> exact h

theorem busWrite_bounded (a : Addr) (v : Byte) (s : State) (h : s.apu.bounded = true) :
    (busWrite a v s).apu.bounded = true := by
  have hm : ∀ m (s : State), (s.setMapper m).apu = s.apu := by
    intro m s; rw [setMapper_eq]
  unfold busWrite
  split
  · exact h
  · exact h
  · unfold apuWrite
    simp only
    split <;> exact s.apu.bounded_write _ _ _ h
  · unfold cartWrite
    split
    · rw [hm]; exact h
    · split
      · split <;> exact h
      · exact h

end Sys2Proof.Machine
end

