-- ==== Sys2Proof/Laws/Moves.lean ====
section
/-! SUPPORT. What a host move and a step are made of, said once (00_scope R12): a property that register changes, bus
accesses, pauses, log entries and the moves' own updates keep is kept by every step. -/

namespace Sys2Proof.Machine

/-- The end of a step writes the debug fields only: it pauses or leaves `paused`, records no illegal mode, keeps the log
within its capacity and clears the watchpoint note (60_exceptions R302, R314 to R316). -/
theorem finish_fields (s : State) (e : LogEntry) : ∃ pa pr l,
    s.finish e = { s with paused := pa, pauseReason := pr, stepLog := l, watchHit := none } ∧
      (s.paused = true → pa = true) ∧ (pr = s.pauseReason ∨ pr ≠ some .illegalMode) ∧
      l.length ≤ s.params.stepLogCapacity := by
  have hl : (s.appendLog e).stepLog.length ≤ s.params.stepLogCapacity := by
    simp only [State.appendLog, List.length_drop, List.length_append]; omega
  have hb : ∀ u : State, ∃ pa pr, u.breakPause = { u with paused := pa, pauseReason := pr } ∧
      (u.paused = true → pa = true) ∧ (pr = u.pauseReason ∨ pr ≠ some .illegalMode) := by
    intro u
    unfold State.breakPause
    split
    · exact ⟨true, some (.breakpoint u.pc), rfl, fun _ => rfl, .inr (by simp)⟩
    · exact ⟨u.paused, u.pauseReason, rfl, id, .inl rfl⟩
  have hw : ∀ u : State, ∃ pa pr, u.watchPause = { u with paused := pa, pauseReason := pr, watchHit := none } ∧
      (u.paused = true → pa = true) ∧ (pr = u.pauseReason ∨ pr ≠ some .illegalMode) := by
    intro u
    unfold State.watchPause
    split
    · rename_i h
      exact ⟨u.paused, u.pauseReason, by rw [← h], id, .inl rfl⟩
    · exact ⟨true, _, rfl, fun _ => rfl, .inr (by simp)⟩
  obtain ⟨pa1, pr1, e1, p1, r1⟩ := hw (s.appendLog e)
  obtain ⟨pa2, pr2, e2, p2, r2⟩ := hb (s.appendLog e).watchPause
  rw [e1] at e2 p2 r2
  refine ⟨pa2, pr2, (s.appendLog e).stepLog, ?_, fun h => p2 (p1 h), ?_, hl⟩
  · unfold State.finish
    rw [e1, e2]
    rfl
  · rcases r2 with r2 | r2
    · rcases r1 with r1 | r1
      · exact .inl (r2.trans r1)
      · exact .inr (by rw [r2]; exact r1)
    · exact .inr r2

/-- A step is the move `step()` with an empty script, or the script's head on the rest. -/
theorem step_cases (s t : State) (h : step s = .next t) :
    (s.script = [] ∧ hostMove .step s = .next t) ∨
      ∃ m rest, s.script = m :: rest ∧ hostMove m { s with script := rest } = .next t := by
  unfold step nextMove at h
  cases hs : s.script with
  | nil => rw [hs] at h; exact .inl ⟨rfl, h⟩
  | cons m rest => rw [hs] at h; exact .inr ⟨m, rest, rfl, h⟩

/-- What an instruction step does to a property: `P` is kept up to the end of the step, `Q` holds after it. -/
theorem cpuStep_induct (P Q : State → Prop) (h : BusClosed P) (f : FreeOfResult P) (s t : State) (hs : P s)
    (hu : ∀ s1 op, P s1 → Q (s1.unmappedPause op)) (he : ∀ s1 e, P s1 → Q (s1.finish e))
    (hc : cpuStep s = .next t) : Q t := by
  have hf := h.fetch s hs
  rcases fetch_outcomes s with ⟨_, h1⟩ | ⟨i, s1, _, h1, _⟩
  · rw [h1] at hf
    simp only [cpuStep, h1] at hc
    cases hc
    exact hu _ _ hf
  · rw [h1] at hf
    simp only [cpuStep, h1] at hc
    cases hx : exec i s1 with
    | next u => simp only [hx] at hc; cases hc; exact he _ _ (h.exec f i s1 u hx hf)
    | fault z => simp [hx] at hc
    | refused z => simp [hx] at hc

/-- A property that register changes, bus accesses, results and the ends of a step keep. -/
structure MoveClosed (P : State → Prop) : Prop extends BusClosed P where
  result : FreeOfResult P
  finish : ∀ (s : State) (e : LogEntry), P s → P (s.finish e)
  unmapped : ∀ (s : State) (op : Byte), P s → P (s.unmappedPause op)
  nmiPause : ∀ s : State, P s → P (s.pause .nmiBreakpoint)
  clearLog : ∀ s : State, P s → P { s with stepLog := [] }

/-- A property in which neither the pause, nor the log, nor the watchpoint note plays a part but the log's length. -/
theorem MoveClosed.of_fields {P : State → Prop} (h : BusClosed P) (f : FreeOfResult P)
    (pause : ∀ (s : State) (b : Bool) (r : Option PauseReason), P s → P { s with paused := b, pauseReason := r })
    (log : ∀ (s : State) (l : List LogEntry), l.length ≤ s.params.stepLogCapacity → P s → P { s with stepLog := l }) :
    MoveClosed P where
  toBusClosed := h
  result := f
  finish s e hs := by
    obtain ⟨pa, pr, l, he, _, _, hl⟩ := finish_fields s e
    rw [he]
    exact h.note _ none (log { s with paused := pa, pauseReason := pr } l hl (pause s pa pr hs))
  unmapped s op hs := f _ s.cycles _ (pause s true (some (.unmappedOpcode op s.pc)) hs)
  nmiPause s hs := pause s true (some .nmiBreakpoint) hs
  clearLog s hs := log s [] (Nat.zero_le _) hs

/-- What more a move must keep, by move. -/
def MoveKeeps (P : State → Prop) (m : HostMove) : Prop :=
  match m with
  | .step => True
  | .nmi => True
  | .requestIrq => True
  | .onHblank n => ∀ s, P s → P (onHblank n s)
  | .cpuReset => True
  | .apuReset => ∀ s, P s → P (apuReset s)
  | .systemReset => (∀ m s, P s → P (s.setMapper m)) ∧ ∀ s, P s → P (apuReset s)
  | .setStatus i k => ∀ s, P s → P { s with apu := s.apu.setStatus i k }
  | .bpEnable a => ∀ s, P s → P (setBreakpoint a true s)
  | .bpDisable a => ∀ s, P s → P (setBreakpoint a false s)
  | .bpEnableNmi => ∀ s, P s → P { s with bpNmi := true }
  | .bpDisableNmi => ∀ s, P s → P { s with bpNmi := false }
  | .bpClearAll => ∀ s, P s → P (clearBreakpoints s)
  | .wpEnable a k => ∀ s, P s → P (setWatchpoint a k true s)
  | .wpDisable a k => ∀ s, P s → P (setWatchpoint a k false s)
  | .stepLog _ => True
  | .resume => ∀ s, P s → P { s with paused := false }
  | .cpuSave => True
  | .cpuLoad l => ∀ s, P s → P (cpuLoad l s)
  | .apuSave => True
  | .apuLoad l => ∀ s, P s → P (apuLoad l s)
  | .deliverIrq => ∀ s, P s → P { s with irqTrigger := false }
  | .stepUnlessPaused => True
  | .boundary hb nmi => ∀ s, P s → P { s with script := boundaryMoves hb nmi ++ s.script }

section
variable {P : State → Prop} (h : MoveClosed P)
include h

theorem MoveClosed.returns (s : State) (r : HostResult) (hs : P s) : P (s.returns r) := h.result s s.cycles r hs

theorem MoveClosed.cpuStep (s t : State) (hs : P s) (hc : cpuStep s = .next t) : P t :=
  cpuStep_induct P P h.toBusClosed h.result s t hs h.unmapped h.finish hc

theorem MoveClosed.nmiEntry (s : State) (hs : P s) : P (nmiEntry s) := by
  have h1 := h.result _ (hardwareEntry Config.vecNmi s).cycles .nothing (h.hardwareEntry h.result Config.vecNmi s hs)
  unfold Machine.nmiEntry
  simp only
  split
  · exact h.nmiPause _ h1
  · exact h1

theorem MoveClosed.cpuReset (s : State) (hs : P s) : P (cpuReset s) := by
  have h1 := h.read16 Config.vecReset ((s.setP 0x34#8).setSp (s.sp - 3))
    (h.setSp _ _ (h.setP _ _ (fun _ => by decide) hs))
  exact h.clearLog _ (h.setPc _ _ h1)

/-- Every host move keeps it. -/
theorem MoveClosed.hostMove (m : HostMove) (hk : MoveKeeps P m) (s t : State) (hs : P s)
    (hm : hostMove m s = .next t) : P t := by
  cases m <;> simp only [Machine.hostMove] at hm <;> simp only [MoveKeeps] at hk
  case step =>
    split at hm
    · cases hm
    · exact h.cpuStep _ _ hs hm
  case stepUnlessPaused =>
    split at hm
    · cases hm
      exact h.returns _ _ hs
    · exact h.cpuStep _ _ hs hm
  all_goals cases hm
  case nmi => exact h.nmiEntry s hs
  case requestIrq => exact h.requestIrq h.result s hs
  case onHblank n => exact h.returns _ _ (hk _ hs)
  case cpuReset => exact h.returns _ _ (h.cpuReset _ hs)
  case apuReset => exact h.returns _ _ (hk _ hs)
  case systemReset => exact h.returns _ _ (h.cpuReset _ (hk.2 _ (hk.1 _ _ hs)))
  case setStatus i k => exact h.returns _ _ (hk _ hs)
  case bpEnable a => exact h.returns _ _ (hk _ hs)
  case bpDisable a => exact h.returns _ _ (hk _ hs)
  case bpEnableNmi => exact h.returns _ _ (hk _ hs)
  case bpDisableNmi => exact h.returns _ _ (hk _ hs)
  case bpClearAll => exact h.returns _ _ (hk _ hs)
  case wpEnable a k => exact h.returns _ _ (hk _ hs)
  case wpDisable a k => exact h.returns _ _ (hk _ hs)
  case stepLog n => exact h.returns _ _ hs
  case resume => exact h.returns _ _ (hk s hs)
  case cpuSave => exact h.returns _ _ hs
  case cpuLoad l => exact hk _ hs
  case apuSave => exact h.returns _ _ hs
  case apuLoad l => exact hk _ hs
  case deliverIrq =>
    unfold deliverIrq
    split
    · split
      · exact h.requestIrq h.result _ (h.returns _ _ hs)
      · exact h.returns _ _ hs
    · split
      · exact h.requestIrq h.result _ (hk _ (h.returns _ _ hs))
      · exact h.returns _ _ hs
    · exact h.returns _ _ hs
  case boundary hb nm => exact h.returns _ _ (hk _ hs)

/-- Every step whose move keeps it keeps it. -/
theorem MoveClosed.step (hscript : ∀ s l, P s → P { s with script := l }) (s t : State)
    (hk : ∀ m, s.script.head? = some m → MoveKeeps P m) (hs : P s) (hstep : step s = .next t) : P t := by
  rcases step_cases s t hstep with ⟨_, hm⟩ | ⟨m, rest, hr, hm⟩
  · exact h.hostMove .step trivial s t hs hm
  · exact h.hostMove m (hk m (by rw [hr]; rfl)) _ t (hscript s rest hs) hm

end

/-- A change of the mapper's state changes it, the events and the trigger note only. -/
theorem setMapper_fields (m : MapperState) (s : State) :
    ∃ ev tr, s.setMapper m = { s with mapper := m, events := ev, irqTrigger := tr } := ⟨_, _, setMapper_eq m s⟩

theorem AddrSet.le_of_mem (l : List Nat) (lo x : Nat) (h : AddrSet.wfFrom lo l = true) (hx : x ∈ l) : lo ≤ x := by
  induction l generalizing lo with
  | nil => cases hx
  | cons d r ih =>
    simp only [AddrSet.wfFrom, Bool.and_eq_true, decide_eq_true_eq] at h
    rcases List.mem_cons.1 hx with rfl | hx
    · exact h.1
    · have := ih _ h.2 hx; omega

theorem AddrSet.mem_eraseFrom (l : List Nat) (a b lo : Nat) (h : AddrSet.wfFrom lo l = true) :
    b ∈ AddrSet.erase a l ↔ b ≠ a ∧ b ∈ l := by
  induction l generalizing lo with
  | nil => simp [AddrSet.erase]
  | cons c rest ih =>
    simp only [AddrSet.wfFrom, Bool.and_eq_true, decide_eq_true_eq] at h
    simp only [AddrSet.erase]
    split
    · rename_i e
      subst e
      constructor
      · intro hb
        have := AddrSet.le_of_mem _ _ b h.2 hb
        exact ⟨by omega, List.mem_cons_of_mem _ hb⟩
      · rintro ⟨h1, h2⟩
        exact (List.mem_cons.1 h2).resolve_left h1
    · rename_i e
      simp only [List.mem_cons, ih _ h.2]
      constructor
      · rintro (rfl | h2)
        · exact ⟨fun x => e x.symm, .inl rfl⟩
        · exact ⟨h2.1, .inr h2.2⟩
      · rintro ⟨h1, rfl | h2⟩
        · exact .inl rfl
        · exact .inr ⟨h1, h2⟩

/-- Membership after erasing, in a set in its one form. -/
theorem AddrSet.mem_erase (l : List Nat) (a b : Nat) (h : AddrSet.wf l = true) :
    b ∈ AddrSet.erase a l ↔ b ≠ a ∧ b ∈ l := AddrSet.mem_eraseFrom l a b 0 h

end Sys2Proof.Machine
end

