-- ==== Sys2Proof/Tests/Slice0.lean ====
section
/-! SUPPORT. Tests of one decode, one operation or one step each. Expected results are the worked examples and vectors of
95_test_vectors (S, V numbers) and the rules' own examples; decode words are written out from 30_encoding R104. -/

namespace Sys2Proof.Tests

open Sys2Proof.Machine

/-! ## Well-formedness smoke: the one check is the displacement's range (30_encoding R100, R110) -/

theorem test_wf_refuses_above : (Instr.bne 128).wellFormed = false := by decide
theorem test_wf_refuses_below : (Instr.bpl (-129)).wellFormed = false := by decide
theorem test_wf_accepts_ends : (Instr.beq 127).wellFormed = true ∧ (Instr.bcs (-128)).wellFormed = true := by decide
theorem test_wf_accepts_others : (Instr.ldaAbsx 0xFFFF#16).wellFormed = true ∧ Instr.brk.wellFormed = true := by decide

/-! ## Decoding, one theorem per mnemonic, one word per row of 30_encoding R104 -/

theorem test_decode_lda :
    decode [0xA9#8, 0x5A#8, 0xEE#8] = .instr (.ldaImm 0x5A#8) [0xEE#8] ∧
      decode [0xA5#8, 0x10#8, 0xEE#8] = .instr (.ldaZp 0x10#8) [0xEE#8] ∧
      decode [0xB5#8, 0xF0#8, 0xEE#8] = .instr (.ldaZpx 0xF0#8) [0xEE#8] ∧
      decode [0xAD#8, 0x34#8, 0x12#8, 0xEE#8] = .instr (.ldaAbs 0x1234#16) [0xEE#8] ∧
      decode [0xBD#8, 0xFF#8, 0x02#8, 0xEE#8] = .instr (.ldaAbsx 0x02FF#16) [0xEE#8] ∧
      decode [0xB9#8, 0x78#8, 0x56#8, 0xEE#8] = .instr (.ldaAbsy 0x5678#16) [0xEE#8] ∧
      decode [0xA1#8, 0xFE#8, 0xEE#8] = .instr (.ldaIndx 0xFE#8) [0xEE#8] ∧
      decode [0xB1#8, 0x11#8, 0xEE#8] = .instr (.ldaIndy 0x11#8) [0xEE#8] := by decide

theorem test_decode_ldx :
    decode [0xA2#8, 0x5A#8, 0xEE#8] = .instr (.ldxImm 0x5A#8) [0xEE#8] ∧
      decode [0xA6#8, 0x10#8, 0xEE#8] = .instr (.ldxZp 0x10#8) [0xEE#8] ∧
      decode [0xB6#8, 0xFF#8, 0xEE#8] = .instr (.ldxZpy 0xFF#8) [0xEE#8] ∧
      decode [0xAE#8, 0x34#8, 0x12#8, 0xEE#8] = .instr (.ldxAbs 0x1234#16) [0xEE#8] ∧
      decode [0xBE#8, 0x78#8, 0x56#8, 0xEE#8] = .instr (.ldxAbsy 0x5678#16) [0xEE#8] := by decide

theorem test_decode_ldy :
    decode [0xA0#8, 0x5A#8, 0xEE#8] = .instr (.ldyImm 0x5A#8) [0xEE#8] ∧
      decode [0xA4#8, 0x10#8, 0xEE#8] = .instr (.ldyZp 0x10#8) [0xEE#8] ∧
      decode [0xB4#8, 0xF0#8, 0xEE#8] = .instr (.ldyZpx 0xF0#8) [0xEE#8] ∧
      decode [0xAC#8, 0x34#8, 0x12#8, 0xEE#8] = .instr (.ldyAbs 0x1234#16) [0xEE#8] ∧
      decode [0xBC#8, 0xFF#8, 0x02#8, 0xEE#8] = .instr (.ldyAbsx 0x02FF#16) [0xEE#8] := by decide

theorem test_decode_sta :
    decode [0x85#8, 0x10#8, 0xEE#8] = .instr (.staZp 0x10#8) [0xEE#8] ∧
      decode [0x95#8, 0xF0#8, 0xEE#8] = .instr (.staZpx 0xF0#8) [0xEE#8] ∧
      decode [0x8D#8, 0x34#8, 0x12#8, 0xEE#8] = .instr (.staAbs 0x1234#16) [0xEE#8] ∧
      decode [0x9D#8, 0xFF#8, 0x02#8, 0xEE#8] = .instr (.staAbsx 0x02FF#16) [0xEE#8] ∧
      decode [0x99#8, 0x78#8, 0x56#8, 0xEE#8] = .instr (.staAbsy 0x5678#16) [0xEE#8] ∧
      decode [0x81#8, 0xFE#8, 0xEE#8] = .instr (.staIndx 0xFE#8) [0xEE#8] ∧
      decode [0x91#8, 0x11#8, 0xEE#8] = .instr (.staIndy 0x11#8) [0xEE#8] := by decide

theorem test_decode_stx :
    decode [0x86#8, 0x10#8, 0xEE#8] = .instr (.stxZp 0x10#8) [0xEE#8] ∧
      decode [0x96#8, 0xFF#8, 0xEE#8] = .instr (.stxZpy 0xFF#8) [0xEE#8] ∧
      decode [0x8E#8, 0x34#8, 0x12#8, 0xEE#8] = .instr (.stxAbs 0x1234#16) [0xEE#8] := by decide

theorem test_decode_sty :
    decode [0x84#8, 0x10#8, 0xEE#8] = .instr (.styZp 0x10#8) [0xEE#8] ∧
      decode [0x94#8, 0xF0#8, 0xEE#8] = .instr (.styZpx 0xF0#8) [0xEE#8] ∧
      decode [0x8C#8, 0x34#8, 0x12#8, 0xEE#8] = .instr (.styAbs 0x1234#16) [0xEE#8] := by decide

theorem test_decode_tax :
    decode [0xAA#8, 0xEE#8] = .instr .tax [0xEE#8] := by decide

theorem test_decode_tay :
    decode [0xA8#8, 0xEE#8] = .instr .tay [0xEE#8] := by decide

theorem test_decode_tsx :
    decode [0xBA#8, 0xEE#8] = .instr .tsx [0xEE#8] := by decide

theorem test_decode_txa :
    decode [0x8A#8, 0xEE#8] = .instr .txa [0xEE#8] := by decide

theorem test_decode_txs :
    decode [0x9A#8, 0xEE#8] = .instr .txs [0xEE#8] := by decide

theorem test_decode_tya :
    decode [0x98#8, 0xEE#8] = .instr .tya [0xEE#8] := by decide

theorem test_decode_pha :
    decode [0x48#8, 0xEE#8] = .instr .pha [0xEE#8] := by decide

theorem test_decode_php :
    decode [0x08#8, 0xEE#8] = .instr .php [0xEE#8] := by decide

theorem test_decode_pla :
    decode [0x68#8, 0xEE#8] = .instr .pla [0xEE#8] := by decide

theorem test_decode_plp :
    decode [0x28#8, 0xEE#8] = .instr .plp [0xEE#8] := by decide

theorem test_decode_and :
    decode [0x29#8, 0x5A#8, 0xEE#8] = .instr (.andImm 0x5A#8) [0xEE#8] ∧
      decode [0x25#8, 0x10#8, 0xEE#8] = .instr (.andZp 0x10#8) [0xEE#8] ∧
      decode [0x35#8, 0xF0#8, 0xEE#8] = .instr (.andZpx 0xF0#8) [0xEE#8] ∧
      decode [0x2D#8, 0x34#8, 0x12#8, 0xEE#8] = .instr (.andAbs 0x1234#16) [0xEE#8] ∧
      decode [0x3D#8, 0xFF#8, 0x02#8, 0xEE#8] = .instr (.andAbsx 0x02FF#16) [0xEE#8] ∧
      decode [0x39#8, 0x78#8, 0x56#8, 0xEE#8] = .instr (.andAbsy 0x5678#16) [0xEE#8] ∧
      decode [0x21#8, 0xFE#8, 0xEE#8] = .instr (.andIndx 0xFE#8) [0xEE#8] ∧
      decode [0x31#8, 0x11#8, 0xEE#8] = .instr (.andIndy 0x11#8) [0xEE#8] := by decide

theorem test_decode_ora :
    decode [0x09#8, 0x5A#8, 0xEE#8] = .instr (.oraImm 0x5A#8) [0xEE#8] ∧
      decode [0x05#8, 0x10#8, 0xEE#8] = .instr (.oraZp 0x10#8) [0xEE#8] ∧
      decode [0x15#8, 0xF0#8, 0xEE#8] = .instr (.oraZpx 0xF0#8) [0xEE#8] ∧
      decode [0x0D#8, 0x34#8, 0x12#8, 0xEE#8] = .instr (.oraAbs 0x1234#16) [0xEE#8] ∧
      decode [0x1D#8, 0xFF#8, 0x02#8, 0xEE#8] = .instr (.oraAbsx 0x02FF#16) [0xEE#8] ∧
      decode [0x19#8, 0x78#8, 0x56#8, 0xEE#8] = .instr (.oraAbsy 0x5678#16) [0xEE#8] ∧
      decode [0x01#8, 0xFE#8, 0xEE#8] = .instr (.oraIndx 0xFE#8) [0xEE#8] ∧
      decode [0x11#8, 0x11#8, 0xEE#8] = .instr (.oraIndy 0x11#8) [0xEE#8] := by decide

theorem test_decode_eor :
    decode [0x49#8, 0x5A#8, 0xEE#8] = .instr (.eorImm 0x5A#8) [0xEE#8] ∧
      decode [0x45#8, 0x10#8, 0xEE#8] = .instr (.eorZp 0x10#8) [0xEE#8] ∧
      decode [0x55#8, 0xF0#8, 0xEE#8] = .instr (.eorZpx 0xF0#8) [0xEE#8] ∧
      decode [0x4D#8, 0x34#8, 0x12#8, 0xEE#8] = .instr (.eorAbs 0x1234#16) [0xEE#8] ∧
      decode [0x5D#8, 0xFF#8, 0x02#8, 0xEE#8] = .instr (.eorAbsx 0x02FF#16) [0xEE#8] ∧
      decode [0x59#8, 0x78#8, 0x56#8, 0xEE#8] = .instr (.eorAbsy 0x5678#16) [0xEE#8] ∧
      decode [0x41#8, 0xFE#8, 0xEE#8] = .instr (.eorIndx 0xFE#8) [0xEE#8] ∧
      decode [0x51#8, 0x11#8, 0xEE#8] = .instr (.eorIndy 0x11#8) [0xEE#8] := by decide

theorem test_decode_bit :
    decode [0x24#8, 0x10#8, 0xEE#8] = .instr (.bitZp 0x10#8) [0xEE#8] ∧
      decode [0x2C#8, 0x34#8, 0x12#8, 0xEE#8] = .instr (.bitAbs 0x1234#16) [0xEE#8] := by decide

theorem test_decode_adc :
    decode [0x69#8, 0x5A#8, 0xEE#8] = .instr (.adcImm 0x5A#8) [0xEE#8] ∧
      decode [0x65#8, 0x10#8, 0xEE#8] = .instr (.adcZp 0x10#8) [0xEE#8] ∧
      decode [0x75#8, 0xF0#8, 0xEE#8] = .instr (.adcZpx 0xF0#8) [0xEE#8] ∧
      decode [0x6D#8, 0x34#8, 0x12#8, 0xEE#8] = .instr (.adcAbs 0x1234#16) [0xEE#8] ∧
      decode [0x7D#8, 0xFF#8, 0x02#8, 0xEE#8] = .instr (.adcAbsx 0x02FF#16) [0xEE#8] ∧
      decode [0x79#8, 0x78#8, 0x56#8, 0xEE#8] = .instr (.adcAbsy 0x5678#16) [0xEE#8] ∧
      decode [0x61#8, 0xFE#8, 0xEE#8] = .instr (.adcIndx 0xFE#8) [0xEE#8] ∧
      decode [0x71#8, 0x11#8, 0xEE#8] = .instr (.adcIndy 0x11#8) [0xEE#8] := by decide

theorem test_decode_sbc :
    decode [0xE9#8, 0x5A#8, 0xEE#8] = .instr (.sbcImm 0x5A#8) [0xEE#8] ∧
      decode [0xE5#8, 0x10#8, 0xEE#8] = .instr (.sbcZp 0x10#8) [0xEE#8] ∧
      decode [0xF5#8, 0xF0#8, 0xEE#8] = .instr (.sbcZpx 0xF0#8) [0xEE#8] ∧
      decode [0xED#8, 0x34#8, 0x12#8, 0xEE#8] = .instr (.sbcAbs 0x1234#16) [0xEE#8] ∧
      decode [0xFD#8, 0xFF#8, 0x02#8, 0xEE#8] = .instr (.sbcAbsx 0x02FF#16) [0xEE#8] ∧
      decode [0xF9#8, 0x78#8, 0x56#8, 0xEE#8] = .instr (.sbcAbsy 0x5678#16) [0xEE#8] ∧
      decode [0xE1#8, 0xFE#8, 0xEE#8] = .instr (.sbcIndx 0xFE#8) [0xEE#8] ∧
      decode [0xF1#8, 0x11#8, 0xEE#8] = .instr (.sbcIndy 0x11#8) [0xEE#8] := by decide

theorem test_decode_cmp :
    decode [0xC9#8, 0x5A#8, 0xEE#8] = .instr (.cmpImm 0x5A#8) [0xEE#8] ∧
      decode [0xC5#8, 0x10#8, 0xEE#8] = .instr (.cmpZp 0x10#8) [0xEE#8] ∧
      decode [0xD5#8, 0xF0#8, 0xEE#8] = .instr (.cmpZpx 0xF0#8) [0xEE#8] ∧
      decode [0xCD#8, 0x34#8, 0x12#8, 0xEE#8] = .instr (.cmpAbs 0x1234#16) [0xEE#8] ∧
      decode [0xDD#8, 0xFF#8, 0x02#8, 0xEE#8] = .instr (.cmpAbsx 0x02FF#16) [0xEE#8] ∧
      decode [0xD9#8, 0x78#8, 0x56#8, 0xEE#8] = .instr (.cmpAbsy 0x5678#16) [0xEE#8] ∧
      decode [0xC1#8, 0xFE#8, 0xEE#8] = .instr (.cmpIndx 0xFE#8) [0xEE#8] ∧
      decode [0xD1#8, 0x11#8, 0xEE#8] = .instr (.cmpIndy 0x11#8) [0xEE#8] := by decide

theorem test_decode_cpx :
    decode [0xE0#8, 0x5A#8, 0xEE#8] = .instr (.cpxImm 0x5A#8) [0xEE#8] ∧
      decode [0xE4#8, 0x10#8, 0xEE#8] = .instr (.cpxZp 0x10#8) [0xEE#8] ∧
      decode [0xEC#8, 0x34#8, 0x12#8, 0xEE#8] = .instr (.cpxAbs 0x1234#16) [0xEE#8] := by decide

theorem test_decode_cpy :
    decode [0xC0#8, 0x5A#8, 0xEE#8] = .instr (.cpyImm 0x5A#8) [0xEE#8] ∧
      decode [0xC4#8, 0x10#8, 0xEE#8] = .instr (.cpyZp 0x10#8) [0xEE#8] ∧
      decode [0xCC#8, 0x34#8, 0x12#8, 0xEE#8] = .instr (.cpyAbs 0x1234#16) [0xEE#8] := by decide

theorem test_decode_inc :
    decode [0xE6#8, 0x10#8, 0xEE#8] = .instr (.incZp 0x10#8) [0xEE#8] ∧
      decode [0xF6#8, 0xF0#8, 0xEE#8] = .instr (.incZpx 0xF0#8) [0xEE#8] ∧
      decode [0xEE#8, 0x34#8, 0x12#8, 0xEE#8] = .instr (.incAbs 0x1234#16) [0xEE#8] ∧
      decode [0xFE#8, 0xFF#8, 0x02#8, 0xEE#8] = .instr (.incAbsx 0x02FF#16) [0xEE#8] := by decide

theorem test_decode_dec :
    decode [0xC6#8, 0x10#8, 0xEE#8] = .instr (.decZp 0x10#8) [0xEE#8] ∧
      decode [0xD6#8, 0xF0#8, 0xEE#8] = .instr (.decZpx 0xF0#8) [0xEE#8] ∧
      decode [0xCE#8, 0x34#8, 0x12#8, 0xEE#8] = .instr (.decAbs 0x1234#16) [0xEE#8] ∧
      decode [0xDE#8, 0xFF#8, 0x02#8, 0xEE#8] = .instr (.decAbsx 0x02FF#16) [0xEE#8] := by decide

theorem test_decode_inx :
    decode [0xE8#8, 0xEE#8] = .instr .inx [0xEE#8] := by decide

theorem test_decode_iny :
    decode [0xC8#8, 0xEE#8] = .instr .iny [0xEE#8] := by decide

theorem test_decode_dex :
    decode [0xCA#8, 0xEE#8] = .instr .dex [0xEE#8] := by decide

theorem test_decode_dey :
    decode [0x88#8, 0xEE#8] = .instr .dey [0xEE#8] := by decide

theorem test_decode_asl :
    decode [0x0A#8, 0xEE#8] = .instr .aslAcc [0xEE#8] ∧
      decode [0x06#8, 0x10#8, 0xEE#8] = .instr (.aslZp 0x10#8) [0xEE#8] ∧
      decode [0x16#8, 0xF0#8, 0xEE#8] = .instr (.aslZpx 0xF0#8) [0xEE#8] ∧
      decode [0x0E#8, 0x34#8, 0x12#8, 0xEE#8] = .instr (.aslAbs 0x1234#16) [0xEE#8] ∧
      decode [0x1E#8, 0xFF#8, 0x02#8, 0xEE#8] = .instr (.aslAbsx 0x02FF#16) [0xEE#8] := by decide

theorem test_decode_lsr :
    decode [0x4A#8, 0xEE#8] = .instr .lsrAcc [0xEE#8] ∧
      decode [0x46#8, 0x10#8, 0xEE#8] = .instr (.lsrZp 0x10#8) [0xEE#8] ∧
      decode [0x56#8, 0xF0#8, 0xEE#8] = .instr (.lsrZpx 0xF0#8) [0xEE#8] ∧
      decode [0x4E#8, 0x34#8, 0x12#8, 0xEE#8] = .instr (.lsrAbs 0x1234#16) [0xEE#8] ∧
      decode [0x5E#8, 0xFF#8, 0x02#8, 0xEE#8] = .instr (.lsrAbsx 0x02FF#16) [0xEE#8] := by decide

theorem test_decode_rol :
    decode [0x2A#8, 0xEE#8] = .instr .rolAcc [0xEE#8] ∧
      decode [0x26#8, 0x10#8, 0xEE#8] = .instr (.rolZp 0x10#8) [0xEE#8] ∧
      decode [0x36#8, 0xF0#8, 0xEE#8] = .instr (.rolZpx 0xF0#8) [0xEE#8] ∧
      decode [0x2E#8, 0x34#8, 0x12#8, 0xEE#8] = .instr (.rolAbs 0x1234#16) [0xEE#8] ∧
      decode [0x3E#8, 0xFF#8, 0x02#8, 0xEE#8] = .instr (.rolAbsx 0x02FF#16) [0xEE#8] := by decide

theorem test_decode_ror :
    decode [0x6A#8, 0xEE#8] = .instr .rorAcc [0xEE#8] ∧
      decode [0x66#8, 0x10#8, 0xEE#8] = .instr (.rorZp 0x10#8) [0xEE#8] ∧
      decode [0x76#8, 0xF0#8, 0xEE#8] = .instr (.rorZpx 0xF0#8) [0xEE#8] ∧
      decode [0x6E#8, 0x34#8, 0x12#8, 0xEE#8] = .instr (.rorAbs 0x1234#16) [0xEE#8] ∧
      decode [0x7E#8, 0xFF#8, 0x02#8, 0xEE#8] = .instr (.rorAbsx 0x02FF#16) [0xEE#8] := by decide

theorem test_decode_bpl :
    decode [0x10#8, 0xF9#8, 0xEE#8] = .instr (.bpl (-7)) [0xEE#8] := by decide

theorem test_decode_bmi :
    decode [0x30#8, 0xF9#8, 0xEE#8] = .instr (.bmi (-7)) [0xEE#8] := by decide

theorem test_decode_bvc :
    decode [0x50#8, 0xF9#8, 0xEE#8] = .instr (.bvc (-7)) [0xEE#8] := by decide

theorem test_decode_bvs :
    decode [0x70#8, 0xF9#8, 0xEE#8] = .instr (.bvs (-7)) [0xEE#8] := by decide

theorem test_decode_bcc :
    decode [0x90#8, 0xF9#8, 0xEE#8] = .instr (.bcc (-7)) [0xEE#8] := by decide

theorem test_decode_bcs :
    decode [0xB0#8, 0xF9#8, 0xEE#8] = .instr (.bcs (-7)) [0xEE#8] := by decide

theorem test_decode_bne :
    decode [0xD0#8, 0xF9#8, 0xEE#8] = .instr (.bne (-7)) [0xEE#8] := by decide

theorem test_decode_beq :
    decode [0xF0#8, 0xF9#8, 0xEE#8] = .instr (.beq (-7)) [0xEE#8] := by decide

theorem test_decode_jmp :
    decode [0x4C#8, 0x34#8, 0x12#8, 0xEE#8] = .instr (.jmpAbs 0x1234#16) [0xEE#8] ∧
      decode [0x6C#8, 0xFF#8, 0x02#8, 0xEE#8] = .instr (.jmpInd 0x02FF#16) [0xEE#8] := by decide

theorem test_decode_jsr :
    decode [0x20#8, 0x34#8, 0x12#8, 0xEE#8] = .instr (.jsr 0x1234#16) [0xEE#8] := by decide

theorem test_decode_rts :
    decode [0x60#8, 0xEE#8] = .instr .rts [0xEE#8] := by decide

theorem test_decode_rti :
    decode [0x40#8, 0xEE#8] = .instr .rti [0xEE#8] := by decide

theorem test_decode_brk :
    decode [0x00#8, 0xEE#8] = .instr .brk [0xEE#8] := by decide

theorem test_decode_nop :
    decode [0xEA#8, 0xEE#8] = .instr .nop [0xEE#8] := by decide

theorem test_decode_clc :
    decode [0x18#8, 0xEE#8] = .instr .clc [0xEE#8] := by decide

theorem test_decode_sec :
    decode [0x38#8, 0xEE#8] = .instr .sec [0xEE#8] := by decide

theorem test_decode_cli :
    decode [0x58#8, 0xEE#8] = .instr .cli [0xEE#8] := by decide

theorem test_decode_sei :
    decode [0x78#8, 0xEE#8] = .instr .sei [0xEE#8] := by decide

theorem test_decode_cld :
    decode [0xD8#8, 0xEE#8] = .instr .cld [0xEE#8] := by decide

theorem test_decode_sed :
    decode [0xF8#8, 0xEE#8] = .instr .sed [0xEE#8] := by decide

theorem test_decode_clv :
    decode [0xB8#8, 0xEE#8] = .instr .clv [0xEE#8] := by decide

theorem test_decode_unmapped :
    decode [0x02#8] = .rejected (.unmapped 0x02#8) ∧ decode [0xFF#8, 0x00#8] = .rejected (.unmapped 0xFF#8) ∧
      decode [0x80#8] = .rejected (.unmapped 0x80#8) := by decide
theorem test_decode_truncated :
    decode [] = .rejected .empty ∧ decode [0xA9#8] = .rejected (.truncated 0xA9#8) ∧
      decode [0xAD#8, 0x00#8] = .rejected (.truncated 0xAD#8) := by decide
/-- The host's reading of the table. -/
theorem test_table_word : decodeTableWord 8 0x6C = some (.jmpInd 0) ∧ decodeTableWord 8 0x6B = none := by decide

/-! ## Steps -/

/-- `s` with the instruction bytes `bits`, first byte lowest, at 0x8000 in PRG ROM (95_test_vectors conventions). -/
def at8000 (bits : Nat) (s : State) : State := ({ s with pc := 0x8000#16 } : State).withFetchWord 24 bits

/-- `s` with byte `v` at RAM address `a`. -/
def withRam (a : Nat) (v : Byte) (s : State) : State := s.placeCell (.ram a) v

/-- `s` with the word at the IRQ vector (NROM, 32 KiB). -/
def withIrqVector (lo hi : Byte) (s : State) : State := (s.placeCell (.prg 0x7FFE) lo).placeCell (.prg 0x7FFF) hi

/-- What a step's next state shows. -/
def after {α : Type} (s : State) (f : State → α) : Option α :=
  match step s with
  | .next t => some (f t)
  | .fault _ => none
  | .refused _ => none

/-- The reset state with P = 0x24 and S = 0xFD. -/
def base : State := { State.reset with p := 0x24#8 }

/-- V1, S7 -/
theorem test_lda_imm : after (at8000 0x00A9 base) (fun t => (t.a, t.p, t.pc, t.result)) = some (0x00#8, 0x26#8, 0x8002#16, .cycles 2) := by decide

/-- V2 -/
theorem test_lda_zpx_wraps : after (at8000 0xF0B5 (withRam 0x10 0x99 { base with x := 0x20 })) (fun t => (t.a, t.p, t.result)) = some (0x99#8, 0xA4#8, .cycles 4) := by decide

/-- V3 -/
theorem test_ldx_zpy_wraps : after (at8000 0xFFB6 { base with y := 0x02 }) (fun t => (t.x, t.p, t.result)) = some (0x00#8, 0x26#8, .cycles 4) := by decide

/-- V4 -/
theorem test_lda_indx_wraps : after (at8000 0xFEA1 (withRam 0x234 0x5A (withRam 0 0x02 (withRam 0xFF 0x34 { base with x := 0x01 })))) (fun t => (t.a, t.p, t.result)) = some (0x5A#8, 0x24#8, .cycles 6) := by decide

/-- V5 -/
theorem test_lda_indy_crosses : after (at8000 0x10B1 (withRam 0x308 0x80 (withRam 0x11 0x02 (withRam 0x10 0xF8 { base with y := 0x10 })))) (fun t => (t.a, t.p, t.result)) = some (0x80#8, 0xA4#8, .cycles 6) := by decide

/-- V7 -/
theorem test_lda_indy_pointer_wraps : after (at8000 0xFFB1 (withRam 0x400 0x11 (withRam 0 0x04 base))) (fun t => (t.a, t.result)) = some (0x11#8, .cycles 5) := by decide

/-- V9 -/
theorem test_lda_absx_wraps : after (at8000 0xFFFFBD (withRam 0 0x42 { base with x := 0x01 })) (fun t => (t.a, t.result)) = some (0x42#8, .cycles 5) := by decide

/-- V10 -/
theorem test_lda_abs_mirror : after (at8000 0x0800AD (withRam 0 0x80 base)) (fun t => (t.a, t.p, t.result)) = some (0x80#8, 0xA4#8, .cycles 4) := by decide

/-- R133 example -/
theorem test_ldy_imm : after (at8000 0x00A0 { base with y := 9 }) (fun t => (t.y, t.p)) = some (0x00#8, 0x26#8) := by decide

/-- R132 example -/
theorem test_ldx_imm : after (at8000 0x80A2 base) (fun t => (t.x, t.p)) = some (0x80#8, 0xA4#8) := by decide

/-- V11 -/
theorem test_sta_absx : after (at8000 0x02FF9D { base with a := 0x77, x := 0x01 }) (fun t => (t.ram, t.p, t.result)) = some ([(0x300, 0x77#8)], 0x24#8, .cycles 5) := by decide

/-- R135 example -/
theorem test_stx_zp : after (at8000 0x1086 { base with x := 0x07 }) (fun t => t.ram) = some [(0x10, 0x07#8)] := by decide

/-- R136 example -/
theorem test_sty_zpx_wraps : after (at8000 0xFF94 { base with y := 0xFF, x := 0x01 }) (fun t => t.ram) = some [(0, 0xFF#8)] := by decide

/-- V12 -/
theorem test_tax : after (at8000 0xAA { base with x := 0x55, p := 0xA4 }) (fun t => (t.x, t.p, t.result)) = some (0x00#8, 0x26#8, .cycles 2) := by decide

/-- R138 example -/
theorem test_tay : after (at8000 0xA8 { base with a := 0x90 }) (fun t => (t.y, t.p)) = some (0x90#8, 0xA4#8) := by decide

/-- V13 -/
theorem test_tsx : after (at8000 0xBA { base with sp := 0x80 }) (fun t => (t.x, t.p)) = some (0x80#8, 0xA4#8) := by decide

/-- R140 example -/
theorem test_txa : after (at8000 0x8A { base with x := 0x01 }) (fun t => (t.a, t.p)) = some (0x01#8, 0x24#8) := by decide

/-- V14 -/
theorem test_txs_no_flags : after (at8000 0x9A base) (fun t => (t.sp, t.p)) = some (0x00#8, 0x24#8) := by decide

/-- R142 example -/
theorem test_tya : after (at8000 0x98 { base with y := 0x80 }) (fun t => (t.a, t.p)) = some (0x80#8, 0xA4#8) := by decide

/-- V15 -/
theorem test_pha_wraps : after (at8000 0x48 { base with a := 0xAB, sp := 0 }) (fun t => (t.ram, t.sp, t.result)) = some ([(0x100, 0xAB#8)], 0xFF#8, .cycles 3) := by decide

/-- V16 -/
theorem test_pla_wraps : after (at8000 0x68 (withRam 0x100 0x80 { base with sp := 0xFF })) (fun t => (t.a, t.sp, t.p, t.result)) = some (0x80#8, 0x00#8, 0xA4#8, .cycles 4) := by decide

/-- V17 -/
theorem test_php : after (at8000 0x08 base) (fun t => (t.ram, t.sp, t.p)) = some ([(0x1FD, 0x34#8)], 0xFC#8, 0x24#8) := by decide

/-- V18 -/
theorem test_plp : after (at8000 0x28 (withRam 0x1FD 0xC3 { base with sp := 0xFC })) (fun t => (t.p, t.sp, t.result)) = some (0xE3#8, 0xFD#8, .cycles 4) := by decide

/-- V20 -/
theorem test_watchpoint : after (at8000 0x02008D { base with a := 1, writeWatch := [0x0200] }) (fun t => (t.ram, t.pc, t.paused, t.pauseReason, t.result)) = some ([(0x200, 0x01#8)], 0x8003#16, true, some (.watchpoint 0x0200 .write), .cycles 4) := by decide

/-- V21 -/
theorem test_and : after (at8000 0x0F29 { base with a := 0xF0 }) (fun t => (t.a, t.p)) = some (0x00#8, 0x26#8) := by decide

/-- V22 -/
theorem test_ora : after (at8000 0x0109 { base with a := 0x80 }) (fun t => (t.a, t.p)) = some (0x81#8, 0xA4#8) := by decide

/-- V23 -/
theorem test_eor : after (at8000 0xFF49 { base with a := 0xFF }) (fun t => (t.a, t.p)) = some (0x00#8, 0x26#8) := by decide

/-- V24 -/
theorem test_bit : after (at8000 0x1024 (withRam 0x10 0xC0 { base with a := 1 })) (fun t => (t.a, t.p, t.result)) = some (0x01#8, 0xE6#8, .cycles 3) := by decide

/-- V25 -/
theorem test_bit_clears : after (at8000 0x1024 (withRam 0x10 0x41 { base with a := 1, p := 0xE6 })) (fun t => t.p) = some 0x64#8 := by decide

/-- S2 -/
theorem test_adc_overflow : after (at8000 0x5069 { base with a := 0x50 }) (fun t => (t.a, t.p)) = some (0xA0#8, 0xE4#8) := by decide

/-- V26 -/
theorem test_adc_binary : after (at8000 0x0169 { base with a := 0x09, p := 0x2C }) (fun t => (t.a, t.p)) = some (0x0A#8, 0x2C#8) := by decide

/-- S2 -/
theorem test_sbc_overflow : after (at8000 0x70E9 { base with a := 0xD0, p := 0x25 }) (fun t => (t.a, t.p)) = some (0x60#8, 0x65#8) := by decide

/-- S2 -/
theorem test_sbc_borrow : after (at8000 0x00E9 base) (fun t => (t.a, t.p)) = some (0xFF#8, 0xA4#8) := by decide

/-- V27 -/
theorem test_cmp_equal : after (at8000 0x40C9 { base with a := 0x40 }) (fun t => (t.a, t.p)) = some (0x40#8, 0x27#8) := by decide

/-- V29 -/
theorem test_cmp_less : after (at8000 0xC0C9 { base with a := 0x40 }) (fun t => t.p) = some 0xA4#8 := by decide

/-- V30 -/
theorem test_cpx : after (at8000 0xFFE0 base) (fun t => t.p) = some 0x24#8 := by decide

/-- V31 -/
theorem test_cpy : after (at8000 0x00C0 { base with y := 0xFF }) (fun t => t.p) = some 0xA5#8 := by decide

/-- V32 -/
theorem test_inc : after (at8000 0x10E6 (withRam 0x10 0xFF base)) (fun t => (t.ram, t.p, t.result)) = some ([], 0x26#8, .cycles 5) := by decide

/-- V33 -/
theorem test_dec : after (at8000 0x10C6 base) (fun t => (t.ram, t.p, t.result)) = some ([(0x10, 0xFF#8)], 0xA4#8, .cycles 5) := by decide

/-- V36 -/
theorem test_inc_absx_no_penalty : after (at8000 0x02FFFE (withRam 0x300 0x7F { base with x := 1 })) (fun t => (t.ram, t.p, t.result)) = some ([(0x300, 0x80#8)], 0xA4#8, .cycles 7) := by decide

/-- V34 -/
theorem test_inx : after (at8000 0xE8 { base with x := 0xFF }) (fun t => (t.x, t.p)) = some (0x00#8, 0x26#8) := by decide

/-- R184 example -/
theorem test_iny : after (at8000 0xC8 { base with y := 0xFF }) (fun t => (t.y, t.p)) = some (0x00#8, 0x26#8) := by decide

/-- R185 example -/
theorem test_dex : after (at8000 0xCA { base with x := 0x01 }) (fun t => (t.x, t.p)) = some (0x00#8, 0x26#8) := by decide

/-- V35 -/
theorem test_dey : after (at8000 0x88 base) (fun t => (t.y, t.p)) = some (0xFF#8, 0xA4#8) := by decide

/-- V37 -/
theorem test_asl_acc : after (at8000 0x0A { base with a := 0x81 }) (fun t => (t.a, t.p, t.pc, t.result)) = some (0x02#8, 0x25#8, 0x8001#16, .cycles 2) := by decide

/-- V38 -/
theorem test_asl_zp : after (at8000 0x1006 (withRam 0x10 0x40 base)) (fun t => (t.ram, t.p, t.result)) = some ([(0x10, 0x80#8)], 0xA4#8, .cycles 5) := by decide

/-- V39 -/
theorem test_lsr : after (at8000 0x4A { base with a := 0x01 }) (fun t => (t.a, t.p)) = some (0x00#8, 0x27#8) := by decide

/-- V40 -/
theorem test_rol : after (at8000 0x2A { base with a := 0x80 }) (fun t => (t.a, t.p)) = some (0x00#8, 0x27#8) := by decide

/-- V41 -/
theorem test_ror : after (at8000 0x6A { base with a := 0x01, p := 0x25 }) (fun t => (t.a, t.p)) = some (0x80#8, 0xA5#8) := by decide

/-- R190 example -/
theorem test_ror_zp : after (at8000 0x2066 (withRam 0x20 0x02 { base with p := 0x25 })) (fun t => (t.ram, t.p)) = some ([(0x20, 0x81#8)], 0xA4#8) := by decide

/-- V43 -/
theorem test_jmp_ind_page : after (at8000 0x02FF6C (withRam 0x200 0x90 (withRam 0x300 0x80 base))) (fun t => (t.pc, t.result)) = some (0x9000#16, .cycles 5) := by decide

/-- V44 -/
theorem test_jsr : after (at8000 0x900020 base) (fun t => (t.ram, t.sp, t.pc, t.result)) = some ([(0x1FC, 0x02#8), (0x1FD, 0x80#8)], 0xFB#8, 0x9000#16, .cycles 6) := by decide

/-- V45 -/
theorem test_jsr_wraps : after (at8000 0x900020 { base with sp := 0 }) (fun t => (t.ram, t.sp)) = some ([(0x100, 0x80#8), (0x1FF, 0x02#8)], 0xFE#8) := by decide

/-- V46 -/
theorem test_rts : after (at8000 0x60 (withRam 0x1FC 0x02 (withRam 0x1FD 0x80 { base with sp := 0xFB }))) (fun t => (t.pc, t.sp, t.result)) = some (0x8003#16, 0xFD#8, .cycles 6) := by decide

/-- V47 -/
theorem test_rti : after (at8000 0x40 (withRam 0x1FB 0x03 (withRam 0x1FC 0x34 (withRam 0x1FD 0x12 { base with sp := 0xFA })))) (fun t => (t.p, t.pc, t.sp, t.result)) = some (0x23#8, 0x1234#16, 0xFD#8, .cycles 6) := by decide

/-- V49 -/
theorem test_brk : after (at8000 0xEA00 (withIrqVector 0x00 0x90 { base with p := 0xE3 })) (fun t => (t.ram, t.sp, t.p, t.pc, t.result)) = some ([(0x1FB, 0xF3#8), (0x1FC, 0x02#8), (0x1FD, 0x80#8)], 0xFA#8, 0xE7#8, 0x9000#16, .cycles 7) := by decide

/-- V50 -/
theorem test_nop : after (at8000 0xEA base) (fun t => (t.pc, t.p, t.result)) = some (0x8001#16, 0x24#8, .cycles 2) := by decide

/-- V51 to V54 and the examples of R230 to R236 -/
theorem test_clc : after (at8000 0x18 { base with p := 0xFF }) (fun t => t.p) = some 0xFE#8 := by decide

/-- V51 to V54 and the examples of R230 to R236 -/
theorem test_sec : after (at8000 0x38 { base with p := 0x24 }) (fun t => t.p) = some 0x25#8 := by decide

/-- V51 to V54 and the examples of R230 to R236 -/
theorem test_cli : after (at8000 0x58 { base with p := 0x24 }) (fun t => t.p) = some 0x20#8 := by decide

/-- V51 to V54 and the examples of R230 to R236 -/
theorem test_sei : after (at8000 0x78 { base with p := 0x30 }) (fun t => t.p) = some 0x34#8 := by decide

/-- V51 to V54 and the examples of R230 to R236 -/
theorem test_cld : after (at8000 0xD8 { base with p := 0x3C }) (fun t => t.p) = some 0x34#8 := by decide

/-- V51 to V54 and the examples of R230 to R236 -/
theorem test_sed : after (at8000 0xF8 { base with p := 0x24 }) (fun t => t.p) = some 0x2C#8 := by decide

/-- V51 to V54 and the examples of R230 to R236 -/
theorem test_clv : after (at8000 0xB8 { base with p := 0x64 }) (fun t => t.p) = some 0x24#8 := by decide

/-- S3 -/
theorem test_beq_same_page :
    after (({ base with p := 0x26, pc := 0x80F0#16 } : State).withFetchWord 16 0x0DF0) (fun t => (t.pc, t.result)) =
      some (0x80FF#16, .cycles 3) := by decide

/-- S3 -/
theorem test_beq_next_page :
    after (({ base with p := 0x26, pc := 0x80FD#16 } : State).withFetchWord 16 0x01F0) (fun t => (t.pc, t.result)) =
      some (0x8100#16, .cycles 4) := by decide

/-- S3 -/
theorem test_beq_not_taken :
    after (({ base with p := 0x24, pc := 0x80FD#16 } : State).withFetchWord 16 0x01F0) (fun t => (t.pc, t.result)) =
      some (0x80FF#16, .cycles 2) := by decide

/-- S3 -/
theorem test_bcc_page_of_next :
    after (({ base with p := 0x24, pc := 0x80FE#16 } : State).withFetchWord 16 0x0090) (fun t => (t.pc, t.result)) =
      some (0x8100#16, .cycles 3) := by decide

/-- S3 -/
theorem test_bcc_from_ram :
    after (({ base with p := 0x24, pc := 0x0010#16 } : State).withFetchWord 16 0x8090) (fun t => (t.pc, t.result)) =
      some (0xFF92#16, .cycles 4) := by decide

/-- R201 example -/
theorem test_bpl :
    after (({ base with p := 0x24, pc := 0x8010#16 } : State).withFetchWord 16 0x0510) (fun t => (t.pc, t.result)) =
      some (0x8017#16, .cycles 3) := by decide

/-- R202 example -/
theorem test_bmi :
    after (({ base with p := 0x24, pc := 0x8010#16 } : State).withFetchWord 16 0x0530) (fun t => (t.pc, t.result)) =
      some (0x8012#16, .cycles 2) := by decide

/-- R203 example -/
theorem test_bvc :
    after (({ base with p := 0x24, pc := 0x80F0#16 } : State).withFetchWord 16 0x2050) (fun t => (t.pc, t.result)) =
      some (0x8112#16, .cycles 4) := by decide

/-- R204 example -/
theorem test_bvs :
    after (({ base with p := 0x64, pc := 0x8100#16 } : State).withFetchWord 16 0xFC70) (fun t => (t.pc, t.result)) =
      some (0x80FE#16, .cycles 4) := by decide

/-- R206 example -/
theorem test_bcs :
    after (({ base with p := 0x25, pc := 0x8000#16 } : State).withFetchWord 16 0x10B0) (fun t => (t.pc, t.result)) =
      some (0x8012#16, .cycles 3) := by decide

/-- R207 example -/
theorem test_bne :
    after (({ base with p := 0x24, pc := 0x8005#16 } : State).withFetchWord 16 0xF9D0) (fun t => (t.pc, t.result)) =
      some (0x8000#16, .cycles 3) := by decide

/-- V55 -/
theorem test_unmapped : after (at8000 0x02 base) (fun t => (t.paused, t.pauseReason, t.pc, t.result, t.stepLog)) = some (true, some (.unmappedOpcode 0x02#8 0x8000#16), 0x8000#16, .cycles 0, []) := by decide

/-- V64 -/
theorem test_breakpoint : after (at8000 0x00A9 { base with breakpoints := [0x8002] }) (fun t => (t.paused, t.pauseReason, t.pc)) = some (true, some (.breakpoint 0x8002#16), 0x8002#16) := by decide

/-- R316 -/
theorem test_step_log :
    after (at8000 0x00A9 base) (fun t => t.stepLog.map fun e => (e.pc0, e.op)) = some [(0x8000#16, 0xA9#8)] := by decide

/-- R316: the operand byte the instruction has, and the one it lacks. -/
theorem test_step_log_operands :
    after (at8000 0x7FA9 base) (fun t => t.stepLog.map fun e => (e.b1, e.b2)) = some [(some 0x7F#8, none)] := by decide

/-- the empty PRG ROM runs BRK at 0x0000 from reset (log entry 3) -/
theorem test_first_step_from_reset : after (State.reset) (fun t => (t.pc, t.sp, t.result)) = some (0x0000#16, 0xFA#8, .cycles 7) := by decide

/-- The driver does not step a paused CPU (60_exceptions R300). -/
theorem test_step_while_paused :
    (match step { base with paused := true } with | .fault f => some f | .next _ => none | .refused _ => none) =
      some .stepWhilePaused := by decide

/-! ## Host moves -/

/-- The state after one host move on `s`. -/
def moved {α : Type} (m : HostMove) (s : State) (f : State → α) : Option α := after { s with script := [m] } f

/-- PRG ROM with the NMI vector 0xA000. -/
def withNmiVector (s : State) : State := s.placeCell (.prg 0x7FFB) 0xA0

/-- V58 -/
theorem test_nmi :
    moved .nmi (withNmiVector { base with pc := 0x8123, p := 0x20 }) (fun t => (t.ram, t.p, t.sp, t.pc)) =
      some ([(0x1FB, 0x20#8), (0x1FC, 0x23#8), (0x1FD, 0x81#8)], 0x24#8, 0xFA#8, 0xA000#16) := by decide
/-- V59 -/
theorem test_nmi_despite_i :
    moved .nmi (withNmiVector { base with pc := 0x8123, p := 0x34 }) (fun t => (t.ram.read 0x1FB, t.p)) =
      some (0x24#8, 0x34#8) := by decide
/-- V62 -/
theorem test_nmi_wraps :
    moved .nmi (withNmiVector { base with pc := 0x8123, p := 0x20, sp := 0x01 }) (fun t => (t.ram, t.sp)) =
      some ([(0x100, 0x23#8), (0x101, 0x81#8), (0x1FF, 0x20#8)], 0xFE#8) := by decide
/-- V63 -/
theorem test_nmi_breakpoint :
    moved .nmi { base with bpNmi := true } (fun t => (t.paused, t.pauseReason)) = some (true, some .nmiBreakpoint) := by
  decide
/-- V60 -/
theorem test_irq :
    moved .requestIrq (withIrqVector 0x00 0x90 { base with pc := 0x8123, p := 0xE3 })
      (fun t => (t.ram, t.p, t.pc, t.sp, t.result)) =
      some ([(0x1FB, 0xE3#8), (0x1FC, 0x23#8), (0x1FD, 0x81#8)], 0xE7#8, 0x9000#16, 0xFA#8, .accepted true) := by decide
/-- V61 -/
theorem test_irq_refused :
    moved .requestIrq base (fun t => decide (t = { base with result := .accepted false })) = some true := by decide
/-- V101 -/
theorem test_cpu_reset :
    moved .cpuReset ((State.placeCell { base with sp := 0, p := 0xFF, a := 0x12, paused := true } (.prg 0x7FFD) 0x80))
      (fun t => (t.p, t.sp, t.pc, t.a, t.paused)) = some (0x34#8, 0xFD#8, 0x8000#16, 0x12#8, true) := by decide
/-- V104 -/
theorem test_save_load :
    moved (.cpuLoad (cpuSnapshot { base with a := 1, x := 2, y := 3, pc := 0x8000 })) base
      (fun t => (t.a, t.x, t.y, t.sp, t.p, t.pc)) = some (1#8, 2#8, 3#8, 0xFD#8, 0x24#8, 0x8000#16) := by decide
/-- V105, V106 -/
theorem test_load_corrupt :
    moved (.cpuLoad [(.a, 0x100), (.x, 0), (.y, 0), (.s, 0), (.p, 0), (.pc, 0)]) base (fun t => t.result) =
      some .corruptState ∧
    moved (.cpuLoad [(.a, 0), (.x, 0), (.y, 0), (.s, 0), (.p, 0)]) base (fun t => t.result) = some .corruptState := by
  decide
/-- V107 -/
theorem test_apu_load_short :
    moved (.apuLoad (List.replicate 31 0)) base (fun t => t.result) = some .corruptState := by decide
/-- V67: LEVEL delivers a pending frame interrupt once I is clear. -/
theorem test_level_delivery :
    moved .deliverIrq { base with p := 0x20, apu := { base.apu with frameIrq := true } } (fun t => t.result) =
      some (.accepted true) := by decide
/-- V66: EDGE_ONCE drops a refused request. -/
theorem test_edge_delivery :
    moved .deliverIrq { base with irqTrigger := true, params := { base.params with irqDelivery := .edgeOnce } }
      (fun t => (t.result, t.irqTrigger)) = some (.accepted false, false) := by decide
/-- 60_exceptions R308. -/
theorem test_boundary_order :
    boundaryMoves (some 241) true = [.onHblank 241, .nmi, .deliverIrq, .stepUnlessPaused] := by decide

/-! ## The bus -/

/-- V94 -/
theorem test_ram_mirror : (busWrite 0x1FFF 0x5A base).ram = [(0x7FF, 0x5A#8)] := by decide
/-- V95, V96 -/
theorem test_ppu_events :
    (busWrite 0x200E 0x22 (busWrite 0x2006 0x11 base)).events = [.ppuWrite 0x2006 0x22, .ppuWrite 0x2006 0x11] := by decide
/-- V97 -/
theorem test_nrom16_mirror :
    (busRead 0xC000 (State.placeCell { base with board := .nrom .k16 } (.prg 0) 0x77)).1 = 0x77#8 := by decide
/-- V98, V99 -/
theorem test_cart_ram :
    (busRead 0x6000 (busWrite 0x6000 0x33 base)).1 = 0x33#8 ∧ busWrite 0x8000 0x44 base = base := by decide
/-- V100, and the sprite-DMA event of 20_memory R55. -/
theorem test_apu_mirror :
    (busWrite 0x4018 0x77 base).apu.reg 0x18 = 0x77#8 ∧ (busWrite 0x4014 0x02 base).events = [.spriteDma 0x02] := by decide

/-! ## The APU -/

/-- APU writes in order, after reset. -/
def written (l : List (BitVec 5 × Byte)) : Apu :=
  l.foldl (fun u w => u.write Params.reference.lengthTable w.1 w.2) Apu.zero

/-- S8, first tick. -/
theorem test_pulse_length :
    (written [(0x00, 0x0F), (0x03, 0x00)]).p1.tick.length = 6 ∧ (written [(0x00, 0x0F), (0x03, 0x00)]).p1.tick.isPlaying = true ∧
      (written [(0x00, 0x0F), (0x03, 0x00)]).p1.tick.env = { divider := 15, counter := 15, reset := false } := by decide
/-- S8, third tick. -/
theorem test_pulse_stops :
    (written [(0x00, 0x0F), (0x03, 0x00)]).p1.tick.tick.tick.isPlaying = false ∧
      (written [(0x00, 0x0F), (0x03, 0x00)]).p1.tick.tick.tick.env.divider = 7 := by decide
/-- S4 -/
theorem test_length_halt :
    (written [(0x00, 0x20), (0x03, 0x00)]).p1.tick.tick.length = 10 ∧ (written [(0x08, 0x85), (0x0B, 0x00)]).tri.tick.length = 5 := by
  decide
/-- S5: both flags are reported, the frame flag alone is cleared. -/
theorem test_status_read :
    ({ Apu.zero with frameIrq := true, dmcIrq := true }).statusRead.1 = 0xC0#8 ∧
      ({ Apu.zero with frameIrq := true, dmcIrq := true }).statusRead.2.statusByte = 0x80#8 := by decide
/-- S6 -/
theorem test_opposing :
    maskOpposing 0xC0 = 0x00#8 ∧ maskOpposing 0x30 = 0x00#8 ∧ maskOpposing 0xF3 = 0x03#8 ∧ maskOpposing 0xC9 = 0x09#8 ∧
      maskOpposing 0x41 = 0x41#8 := by decide
/-- V70, V68 -/
theorem test_frame_irq :
    ((written [(0x17, 0x00)]).vblank.1.frameIrq, (written [(0x17, 0x00)]).vblank.2, Apu.zero.vblank.2) = (true, true, false) := by
  decide
/-- V76: the first tick of the sweep. -/
theorem test_sweep_add :
    (written [(0x00, 0x30), (0x01, 0x81), (0x02, 0x00), (0x03, 0x01)]).p1.tick.regs =
      { r0 := 0x30, r1 := 0x81, r2 := 0x80, r3 := 0x01 } := by decide
/-- V78: subtract to 8 is kept, below 8 stops. -/
theorem test_sweep_subtract :
    ((written [(0x00, 0x30), (0x01, 0x89), (0x02, 0x0F), (0x03, 0x00)]).p1.tick.regs.r2,
      (written [(0x00, 0x30), (0x01, 0x89), (0x02, 0x0F), (0x03, 0x00)]).p1.tick.tick.stopped,
      (written [(0x00, 0x30), (0x01, 0x89), (0x02, 0x0F), (0x03, 0x00)]).p1.tick.tick.regs.r2) = (0x08#8, true, 0x08#8) := by
  decide
/-- V80 -/
theorem test_triangle :
    (written [(0x08, 0x05), (0x0B, 0x00)]).tri.length = 5 ∧ (written [(0x08, 0x05), (0x0B, 0x00)]).tri.tick.length = 1 ∧
      (written [(0x08, 0x05), (0x0B, 0x00)]).tri.tick.tick.stopped = true := by decide
/-- V81 -/
theorem test_noise :
    (written [(0x0C, 0x05), (0x0F, 0x18)]).noi.tick.env = { divider := 5, counter := 15, reset := false } ∧
      (written [(0x0C, 0x05), (0x0F, 0x18)]).noi.tick.tick.env.divider = 1 := by decide
/-- V82, V85, V88 -/
theorem test_dmc_prime :
    (written [(0x10, 0x80), (0x13, 0x00), (0x15, 0x10)]).statusByte = 0x10#8 ∧
      (written [(0x13, 0x10), (0x15, 0x10), (0x15, 0x10)]).dmc.dmaLength = 16 ∧
      (written [(0x13, 0xF0), (0x15, 0x10)]).dmc.dmaLength = 128 := by decide
/-- V84: the last step of the counter raises the interrupt. -/
theorem test_dmc_exhausts :
    ({ (written [(0x10, 0x80), (0x15, 0x10)]).dmc with dmaLength := 1 }).scanline =
      ({ (written [(0x10, 0x80), (0x15, 0x10)]).dmc with dmaLength := 0, stopped := true }, true) := by decide
/-- V93, V90: the falling edge latches, reads shift bit 0 out. -/
theorem test_pads :
    ((((written [(0x16, 0x01)]).setStatus .pad0 0x03).write Params.reference.lengthTable 0x16 0x02).padShift0,
      ({ Apu.zero with padShift0 := 0x03 }).padRead .pad0) = (0x03#8, (0x01#8, { Apu.zero with padShift0 := 0x01 })) := by decide
/-- V91, V92: no falling edge, no latch. -/
theorem test_pads_no_edge :
    ((Apu.zero.setStatus .pad0 0x01).write Params.reference.lengthTable 0x16 0x00).padShift0 = 0x00#8 := by decide

/-! ## The reset state -/

/-- The reset state is what `system_reset()` makes of the constructed machine (70_reset_and_hazards R333). -/
theorem test_reset_is_system_reset :
    systemReset (State.construct (.nrom .k32) .reference [] [] [] [] 0 0 0 0 0 0xABCD#16 .zero) = State.reset := by decide

/-- What power-on gives of the CORE's mapper is its board's `init`, for NROM nothing, and CHR is the cartridge's
(70_reset_and_hazards R333, 00_scope R7). -/
theorem test_construct_plugs_cartridge :
    let s := State.construct (.nrom .k16) .reference [(0, 0x4C)] [(1, 0x7E)] [] [] 0 0 0 0 0 0 .zero
    s.board = .nrom .k16 ∧ s.mapper = ⟨[], []⟩ ∧ s.prgRom = [(0, 0x4C)] ∧ s.chr = [(1, 0x7E)] := by decide

/-! ## Witnesses: for each statement with hypotheses a concrete state and operands that meet them -/

/-- DecodeOfEncode, at both ends of the one range. -/
theorem witness_wellFormed :
    (Instr.bne (-128)).wellFormed = true ∧ (Instr.bne 127).wellFormed = true ∧ (Instr.staAbsx 0).wellFormed = true := by
  decide

/-- EncodeOfDecode. -/
theorem witness_decode : decode [0x10#8, 0x80#8] = .instr (.bpl (-128)) [] := by decide

/-- LDA #0 at 0x0200. -/
def ready : State := { base with pc := 0x0200#16, ram := [(0x200, 0xA9#8)] }

/-- StepRunsDecodedInstruction, first clause. -/
theorem witness_holdsBytes :
    ready.script = [] ∧ ready.paused = false ∧ ready.holdsBytes ready.pc [0xA9#8, 0x00#8] ∧
      decode [0xA9#8, 0x00#8] = .instr (.ldaImm 0x00#8) [] :=
  ⟨by decide, by decide, ⟨⟨.ram 0x200, by decide, by decide⟩, ⟨.ram 0x201, by decide, by decide⟩, trivial⟩, by decide⟩

/-- StepRunsDecodedInstruction, second clause, and EndOfStepLogsAndPauses. -/
theorem witness_fetch :
    ready.script = [] ∧ ready.paused = false ∧
      fetch ready = (.instr (.ldaImm 0x00#8) ⟨0x0200#16, 0xA9#8, some 0x00#8, none⟩, ready) ∧
      ∃ u, exec (.ldaImm 0x00#8) ready = .next u := ⟨by decide, by decide, rfl, _, rfl⟩

/-- UnmappedOpcodePauses, at the first and the last unmapped byte. -/
theorem witness_unmapped :
    (at8000 0x02 base).script = [] ∧ (at8000 0x02 base).paused = false ∧
      (busRead (at8000 0x02 base).pc (at8000 0x02 base)).1 ∈ unmappedBytes ∧
      (busRead (at8000 0xFF base).pc (at8000 0xFF base)).1 ∈ unmappedBytes := by decide

/-- EveryInstructionCompletesWithTableCycles. -/
theorem witness_not_branch : (Instr.ldaAbsx 0x02FF#16).operand.mode ≠ .rel := by decide

/-- AddressingThroughPointers, JMP clauses, at the end of a page. -/
theorem witness_pointer :
    busRead 0x02FF#16 { base with pc := base.pc + 3 } = (0x00#8, { base with pc := base.pc + 3 }) ∧
      busRead (wordOf (hiByte 0x02FF#16) (loByte 0x02FF#16 + 1)) { base with pc := base.pc + 3 } =
        (0x00#8, { base with pc := base.pc + 3 }) ∧
      base.readCell 0x02FF#16 = some (.ram 0x2FF) ∧
      base.readCell (wordOf (hiByte 0x02FF#16) (loByte 0x02FF#16 + 1)) = some (.ram 0x200) := by decide

/-- OperandIsOneRead, each clause. -/
theorem witness_operand :
    (Instr.ldaImm 1).operand = .imm 1 ∧ Instr.aslAcc.operand = .acc ∧
      effAddr (.ldaAbs 0x1FFF#16) base = some 0x1FFF#16 ∧ (Instr.ldaAbs 0x1FFF#16).operand.mode ≠ .imm ∧
      (addressedState (.ldaAbs 0x1FFF#16) base).readCell 0x1FFF#16 = some (.ram 0x7FF) := by decide

/-- RamAndMirrors, PpuAndUnbackedAccesses, ApuWindowWrites, NromBoard, BoardWriteSwitchesBanks: the ends of the ranges. -/
theorem witness_ranges :
    (0x0000#16).toNat < 0x2000 ∧ (0x1FFF#16).toNat < 0x2000 ∧
      (0x2000 ≤ (0x2000#16).toNat ∧ (0x3FFF#16).toNat < 0x4000) ∧
      (0x4000 ≤ (0x4000#16).toNat ∧ (0x401F#16).toNat < 0x4020 ∧ (0x4014#16 : Addr) ≠ 0x4015 ∧
        (0x4014#16 : Addr) ≠ 0x4016 ∧ (0x4014#16 : Addr) ≠ 0x4017 ∧ 0x4017 ≤ (0x4017#16).toNat) ∧
      (base.board = .nrom .k32 ∧ 0x4020 ≤ (0x4020#16).toNat ∧ (0x5FFF#16).toNat < 0x6000) ∧
      (0x6000 ≤ (0x6000#16).toNat ∧ (0x7FFF#16).toNat < 0x8000) ∧ 0x8000 ≤ (0x8000#16).toNat ∧
      0x8000 ≤ (0xFFFF#16).toNat ∧ ({ base with board := .nrom .k16 } : State).board = .nrom .k16 ∧
      ({ base with board := .custom 1 } : State).board = .custom 1 := by decide

/-- ReadGivesLatestWrite: a mirror of the written byte, and another byte. -/
theorem witness_latest_write :
    base.memoriesOk = true ∧ base.readCell 0x1FFF#16 = some (.ram 0x7FF) ∧ base.writeCell 0x07FF#16 = some (.ram 0x7FF) ∧
      base.writeCell 0x07FE#16 ≠ some (.ram 0x7FF) := by decide

/-- The statements about the instructions of an operation, one form each. -/
theorem witness_ops :
    (Instr.ldaIndy 0).op = .lda ∧ (Instr.ldxZpy 0).op = .ldx ∧ (Instr.ldyAbsx 0).op = .ldy ∧
      (Instr.staZp 0).op = .sta ∧ (Instr.stxZpy 0).op = .stx ∧ (Instr.styAbs 0).op = .sty ∧
      (Instr.andImm 0).op = .and ∧ (Instr.oraIndx 0).op = .ora ∧ (Instr.eorAbsy 0).op = .eor ∧ (Instr.bitZp 0).op = .bit ∧
      (Instr.adcZpx 0).op = .adc ∧ (Instr.sbcAbs 0).op = .sbc ∧ (Instr.cmpImm 0).op = .cmp ∧ (Instr.cpxZp 0).op = .cpx ∧
      (Instr.cpyAbs 0).op = .cpy ∧ (Instr.incAbsx 0).op = .inc ∧ (Instr.decZpx 0).op = .dec ∧
      (Instr.jmpAbs 0).op = .jmp ∧ (Instr.jmpInd 0).op = .jmp ∧
      Instr.nop.op ∈ [Op.nop, Op.clc, Op.sec, Op.cli, Op.sei, Op.cld, Op.sed, Op.clv] ∧
      Instr.clv.op ∈ [Op.nop, Op.clc, Op.sec, Op.cli, Op.sei, Op.cld, Op.sed, Op.clv] := by decide

/-- StoresWriteRegister, IncDecMemory, ShiftsAndRotates: a cell that stores, and an address that does not. -/
theorem witness_store_cells :
    storeCell (.staAbs 0x1FFF#16) base = some (.ram 0x7FF) ∧ storeCell (.staAbs 0x4015#16) base = none ∧
      modifyCell (.incAbs 0x6000#16) base = some (.cartRam 0) ∧ modifyCell .aslAcc base = none ∧
      Instr.aslAcc.operand = .acc ∧ (Instr.incAbs 0x6000#16).operand ≠ .acc ∧ base.ram.wf = true := by decide

/-- ShiftsAndRotates: a new value for each of the four, with the carry set. -/
theorem witness_shift_values :
    let s : State := { base with a := 0x81, p := 0x25 }
    (Instr.aslAcc.op = .asl ∧ (0x02#8).toNat = 2 * (operandValue .aslAcc s).toNat % 256) ∧
      (Instr.lsrAcc.op = .lsr ∧ (0x40#8).toNat = (operandValue .lsrAcc s).toNat / 2) ∧
      (Instr.rolAcc.op = .rol ∧ (0x03#8).toNat = (2 * (operandValue .rolAcc s).toNat + (getFlag s.p .c).toNat) % 256) ∧
      (Instr.rorAcc.op = .ror ∧ (0xC0#8).toNat = (operandValue .rorAcc s).toNat / 2 + 128 * (getFlag s.p .c).toNat) := by
  decide

/-- IrqRequest, each clause. -/
theorem witness_irq :
    getFlag base.p .i = true ∧ getFlag ({ base with p := 0x20 } : State).p .i = false ∧
      ∃ t, hostMove .nmi base = .next t := ⟨by decide, by decide, _, rfl⟩

/-- EntryThenReturnResumes, each clause: the handler's state is the entered state. -/
theorem witness_entry_return :
    base.ram.wf = true ∧ getFlag ({ base with p := 0x20 } : State).p .i = false ∧
      (∃ t, hostMove .nmi base = .next t ∧ t.sp = 0xFA#8 ∧ t.cellByte (stackCell base.sp) = 0x00#8) ∧
      (∃ t, hostMove .requestIrq { base with p := 0x20 } = .next t ∧ t.sp = 0xFA#8) ∧
      ∃ t, exec .brk { base with sp := 0x01 } = .next t ∧ t.sp = 0xFE#8 :=
  ⟨by decide, by decide, ⟨_, rfl, by decide, by decide⟩, ⟨_, rfl, by decide⟩, ⟨_, rfl, by decide⟩⟩

/-- EntryThenReturnResumes, the JSR clause: a subroutine that pushed a byte over the cell below the two JSR wrote. -/
theorem witness_call_that_pushes :
    ∃ t, exec (.jsr 0x9000#16) base = .next t ∧
      let h : State := { t with ram := t.ram.write 0x1FB 0x5A }
      h.sp = t.sp ∧ h.cellByte (stackCell base.sp) = t.cellByte (stackCell base.sp) ∧
        h.cellByte (stackCell (base.sp - 1)) = t.cellByte (stackCell (base.sp - 1)) ∧
        h.cellByte (stackCell (base.sp - 2)) ≠ t.cellByte (stackCell (base.sp - 2)) :=
  ⟨_, rfl, by decide, by decide, by decide, by decide⟩

/-- SystemReset, the power-on clause, and its NROM clause: a constructed state; ResetStateValues and ApuReset: the two
pulse channels. -/
theorem witness_construct :
    let s := State.construct (.nrom .k16) .reference [(0, 0x4C)] [(1, 0x7E)] [] [] 1 2 3 4 5 6 .zero
    s = State.construct (.nrom .k16) .reference [(0, 0x4C)] [(1, 0x7E)] [] [] 1 2 3 4 5 6 .zero ∧
      s.board = .nrom .k16 ∧ Pulse.zero = State.reset.apu.p1 ∧ Pulse.zero = State.reset.apu.p2 := by decide

/-- IllegalModeNeverRaised, StepKeepsInvariant, LaunchDataNeverChanges, ReservedBitStaysSet: a step from a state that
meets their premises. -/
theorem witness_step :
    ready.pauseReason ≠ some .illegalMode ∧ ready.Inv = true ∧ getFlag ready.p .r = true ∧ ready.script.head? = none ∧
      ∃ t, step ready = .next t := ⟨by decide, by decide, by decide, by decide, _, rfl⟩

/-- OnlyResumeClearsPaused. -/
theorem witness_paused :
    let s : State := { base with paused := true, script := [.nmi] }
    s.paused = true ∧ s.script.head? = some .nmi ∧ ∃ t, step s = .next t := ⟨by decide, by decide, _, rfl⟩

/-- DebugStateHasNoEffect: two states that differ in debug state alone. -/
theorem witness_debug :
    let s : State := { ready with breakpoints := [0x0202], writeWatch := [0] }
    ready.withoutDebug = s.withoutDebug ∧ ready.paused = s.paused ∧ ready.script.head? = none := ⟨rfl, rfl, rfl⟩

/-- DebugMovesAndResume: sets in their one form. -/
theorem witness_sets : AddrSet.wf [0, 0x8002, 0xFFFF] = true ∧ AddrSet.wf ([] : List Nat) = true := by decide

/-- DeliveryAndBoundaryOrder, each clause. -/
theorem witness_delivery :
    base.params.irqDelivery = .level ∧ ({ base.apu with frameIrq := true } : Apu).frameIrq = true ∧
      (base.apu.frameIrq = false ∧ base.apu.dmcIrq = false ∧ mapperIrq base.board base.mapper = false) ∧
      ({ Params.reference with irqDelivery := .edgeOnce } : Params).irqDelivery = .edgeOnce ∧
      ({ base with irqTrigger := true } : State).irqTrigger = true ∧ base.irqTrigger = false ∧ base.paused = false ∧
      ({ base with paused := true } : State).paused = true := by decide

/-- InterruptFlagsComeFromHblank, both clauses: each flag comes up. -/
theorem witness_flags_rise :
    let d : Dmc := { Dmc.zero with regs := { ChanRegs.zero with r0 := 0x80 }, dmaLength := 1 }
    let u : Apu := { base.apu with regs := base.apu.regs.set 0x17 0, dmc := d }
    after { base with apu := u, script := [.onHblank 241] } (fun t => (u.frameIrq, t.apu.frameIrq, u.dmcIrq, t.apu.dmcIrq)) =
      some (false, true, false, true) := by decide

/-- CpuSaveAndLoad: a well-formed snapshot in another order, at the ends of the widths, and two malformed ones. -/
theorem witness_snapshots :
    snapshotOk [(.pc, 0xFFFF), (.p, 0), (.s, 255), (.y, 0), (.x, 255), (.a, 0)] ∧ ¬ snapshotOk [] ∧
      ¬ snapshotOk [(.pc, 0x10000), (.p, 0), (.s, 255), (.y, 0), (.x, 255), (.a, 0)] := by
  refine ⟨⟨rfl, ⟨0, ?_⟩, ⟨255, ?_⟩, ⟨0, ?_⟩, ⟨255, ?_⟩, ⟨0, ?_⟩, ⟨0xFFFF, ?_⟩⟩, fun h => absurd h.1 (by decide), ?_⟩
  all_goals try decide
  rintro ⟨_, _, _, _, _, _, v, hm, _, hv⟩
  simp at hm
  omega

/-- ApuSaveAndLoad: the one good length, and one less. -/
theorem witness_apu_lengths :
    (List.replicate 32 0#8).length = 32 ∧ (List.replicate 31 0#8).length ≠ 32 := by decide

/-- A pulse channel whose sweep unit has period `t` and first register byte `r1`. -/
def sweeping (t : Nat) (r1 : Byte) : Pulse := { Pulse.zero with regs := ({ ChanRegs.zero with r1 := r1 }).setPeriod t, stopped := false }

/-- ChannelTicks: each clause of the pulse tick, the sweep at the ends 8 and 0x7FF and beyond both. -/
theorem witness_pulse_clauses :
    Pulse.zero.stopped = true ∧ Triangle.zero.stopped = true ∧ Noise.zero.stopped = true ∧
      ((sweeping 8 0x00).stopped = false ∧ (sweeping 8 0x00).regs.r1.getLsbD 7 = false) ∧
      ((sweeping 8 0xF0).regs.r1.getLsbD 7 = true ∧
        (sweeping 8 0xF0).sweepCounter + 2 < (sweeping 8 0xF0).regs.r1.toNat / 16 % 8 + 1) ∧
      (sweeping 8 0x80).regs.r1.toNat / 16 % 8 + 1 ≤ (sweeping 8 0x80).sweepCounter + 2 ∧
      (sweeping 16 0x89).regs.sweepTarget = 8 ∧ (sweeping 15 0x8F).regs.sweepTarget = 15 ∧
      (sweeping 7 0x8F).regs.sweepTarget = 7 ∧ (sweeping 0x7F0 0x87).regs.sweepTarget = 0x7FF ∧
      (sweeping 0x400 0x80).regs.sweepTarget = 0x800 := by decide

/-- ChannelTicks: each clause of the envelope step. -/
theorem witness_envelope_clauses :
    (⟨3, 1, true⟩ : Envelope).reset = true ∧ (4 ≤ (⟨4, 1, false⟩ : Envelope).divider) ∧
      ((⟨3, 1, false⟩ : Envelope).divider < 4 ∧ 0 < (⟨3, 1, false⟩ : Envelope).counter) ∧
      (⟨3, 0, false⟩ : Envelope).counter = 0 := by decide

/-- ChannelWrites: length index 0, 1 and 31, and the last channel. -/
theorem witness_length_index :
    (0x07#8).toNat / 8 = 0 ∧ (0x08#8).toNat / 8 = (1 : Fin 32).val ∧ (0xFF#8).toNat / 8 = (31 : Fin 32).val ∧ 4 < 5 := by
  decide

/-- AudioDerivedValues, each clause. -/
theorem witness_audio :
    let c : Pulse := { Pulse.zero with stopped := false, enabled := true }
    let d : Pulse := { c with regs := { ChanRegs.zero with r0 := 0xDF } }
    c.bounded = true ∧ Noise.zero.bounded = true ∧ Pulse.zero.stopped = true ∧ c.stopped = false ∧ c.enabled = true ∧
      c.regs.r0.getLsbD 4 = false ∧ d.regs.r0.getLsbD 4 = true ∧ d.regs.r0.toNat / 64 = (3 : Fin 4).val ∧
      Noise.zero.regs.r2.toNat % 16 = (0 : Fin 16).val ∧
      ({ ChanRegs.zero with r2 := 0x8F } : ChanRegs).r2.toNat % 16 = (15 : Fin 16).val ∧ 0 < Params.reference.freqDivisorPulse ∧ 0 < Params.reference.freqDivisorTriangle := by decide

end Sys2Proof.Tests
end

/-! # Family 00_scope: launch data

Launch data is everything a machine is built from that its steps only read: PRG ROM, CHR, the board and the parameters
(00_scope R7). Register changes, bus accesses and the host's moves keep it, so every step does (`MoveClosed.step`). -/

namespace Sys2Proof.Machine

/-- The launch data of a machine: PRG ROM, CHR, the board and the parameters (00_scope R7). -/
def State.launchData (s : State) : Memory × Memory × Board × Params := (s.prgRom, s.chr, s.board, s.params)

theorem State.launchData_eq_iff (s t : State) :
    t.launchData = s.launchData ↔
      t.prgRom = s.prgRom ∧ t.chr = s.chr ∧ t.board = s.board ∧ t.params = s.params := by
  simp only [State.launchData, Prod.mk.injEq]

/-! ## The bus and the devices keep launch data -/

@[simp] theorem busRead_launchData (a : Addr) (s : State) : (busRead a s).2.launchData = s.launchData := by
  simp only [State.launchData, busRead_prgRom, busRead_chr, busRead_board, busRead_params]

@[simp] theorem busWrite_launchData (a : Addr) (v : Byte) (s : State) :
    (busWrite a v s).launchData = s.launchData := by
  simp only [State.launchData, busWrite_prgRom, busWrite_chr, busWrite_board, busWrite_params]

@[simp] theorem State.setMapper_launchData (s : State) (m : MapperState) :
    (s.setMapper m).launchData = s.launchData := by
  rw [setMapper_eq]; rfl

/-- The frame sequencer changes the APU, the events and the trigger note only (50_apu R252). -/
@[simp] theorem onHblank_launchData (n : Nat) (s : State) : (onHblank n s).launchData = s.launchData := by
  rw [onHblank_eq]; rfl

/-! ## The host's own updates keep launch data -/

@[simp] theorem setWatchpoint_launchData (a : Addr) (k : Access) (on : Bool) (s : State) :
    (setWatchpoint a k on s).launchData = s.launchData := by
  cases k <;> rfl

/-- A loaded snapshot sets registers or is refused (70_reset_and_hazards R337). -/
@[simp] theorem cpuLoad_launchData (l : CpuSnapshot) (s : State) : (cpuLoad l s).launchData = s.launchData := by
  unfold cpuLoad
  split <;> rfl

/-- A loaded mirror sets the APU or is refused (70_reset_and_hazards R339). -/
@[simp] theorem apuLoad_launchData (m : List Byte) (s : State) : (apuLoad m s).launchData = s.launchData := by
  unfold apuLoad
  split <;> rfl

/-! ## Every step keeps launch data -/

/-- Holding the launch data `d` is closed under what instructions, entries and the ends of a step are made of. -/
theorem moveClosed_launchData (d : Memory × Memory × Board × Params) : MoveClosed fun t => t.launchData = d :=
  .of_fields
    { regs := fun _ _ _ _ _ _ _ _ h => h
      note := fun _ _ h => h
      read := fun a s h => (busRead_launchData a s).trans h
      write := fun a v s h => (busWrite_launchData a v s).trans h }
    (fun _ _ _ h => h) (fun _ _ _ h => h) (fun _ _ _ h => h)

/-- No move of the host changes launch data by its own update. -/
theorem moveKeeps_launchData (d : Memory × Memory × Board × Params) (m : HostMove) :
    MoveKeeps (fun t => t.launchData = d) m := by
  cases m with
  | onHblank n => exact fun s h => (onHblank_launchData n s).trans h
  | systemReset => exact ⟨fun k s h => (s.setMapper_launchData k).trans h, fun _ h => h⟩
  | wpEnable a k => exact fun s h => (setWatchpoint_launchData a k true s).trans h
  | wpDisable a k => exact fun s h => (setWatchpoint_launchData a k false s).trans h
  | cpuLoad l => exact fun s h => (cpuLoad_launchData l s).trans h
  | apuLoad l => exact fun s h => (apuLoad_launchData l s).trans h
  | apuReset | setStatus | bpEnable | bpDisable | bpEnableNmi | bpDisableNmi | bpClearAll | resume | deliverIrq
  | boundary => exact fun _ h => h
  | step | nmi | requestIrq | cpuReset | stepLog | cpuSave | apuSave | stepUnlessPaused => trivial

theorem step_launchData (s t : State) (h : step s = .next t) : t.launchData = s.launchData :=
  (moveClosed_launchData s.launchData).step (fun _ _ hs => hs) s t (fun m _ => moveKeeps_launchData _ m) rfl h

/-- Settles O50: a step is made of register changes, bus accesses and host updates, and each of these keeps the launch
data. -/
theorem launchDataNeverChanges : Obligations.LaunchDataNeverChanges := by
  unfold Obligations.LaunchDataNeverChanges
  intro s t h
  exact (s.launchData_eq_iff t).mp (step_launchData s t h)

end Sys2Proof.Machine

/-! # Family 10_state: invariants of every step, and the resets

Each invariant is one property shown `MoveClosed` and kept by the moves' own updates, so that `MoveClosed.step` gives it
for every step. The host's own updates come first: what each leaves unchanged, field by field. -/

namespace Sys2Proof.Machine

/-! ## What the host's own updates leave unchanged -/

/-- `s` with another APU, other events and another trigger note: all that the frame sequencer and the APU's reset
change. -/
def State.withApuEvents (s : State) (u : Apu) (ev : List Event) (tr : Bool) : State :=
  { s with apu := u, events := ev, irqTrigger := tr }

/-- The frame sequencer changes the APU, the events and the trigger note only (50_apu R252). -/
theorem onHblank_fields (n : Nat) (s : State) : ∃ u ev tr, onHblank n s = s.withApuEvents u ev tr :=
  ⟨_, _, _, onHblank_eq n s⟩

@[simp] theorem onHblank_p (n : Nat) (s : State) : (onHblank n s).p = s.p := by
  rw [onHblank_eq]
@[simp] theorem onHblank_paused (n : Nat) (s : State) : (onHblank n s).paused = s.paused := by
  rw [onHblank_eq]
@[simp] theorem onHblank_watchHit (n : Nat) (s : State) : (onHblank n s).watchHit = s.watchHit := by
  rw [onHblank_eq]

@[simp] theorem setWatchpoint_p (a : Addr) (k : Access) (on : Bool) (s : State) : (setWatchpoint a k on s).p = s.p := by
  cases k <;> rfl
@[simp] theorem setWatchpoint_paused (a : Addr) (k : Access) (on : Bool) (s : State) :
    (setWatchpoint a k on s).paused = s.paused := by cases k <;> rfl
@[simp] theorem setWatchpoint_watchHit (a : Addr) (k : Access) (on : Bool) (s : State) :
    (setWatchpoint a k on s).watchHit = s.watchHit := by cases k <;> rfl
@[simp] theorem setWatchpoint_apu (a : Addr) (k : Access) (on : Bool) (s : State) :
    (setWatchpoint a k on s).apu = s.apu := by cases k <;> rfl

@[simp] theorem cpuLoad_paused (l : CpuSnapshot) (s : State) : (cpuLoad l s).paused = s.paused := by
  unfold cpuLoad; split <;> rfl
@[simp] theorem cpuLoad_watchHit (l : CpuSnapshot) (s : State) : (cpuLoad l s).watchHit = s.watchHit := by
  unfold cpuLoad; split <;> rfl
@[simp] theorem cpuLoad_apu (l : CpuSnapshot) (s : State) : (cpuLoad l s).apu = s.apu := by
  unfold cpuLoad; split <;> rfl

@[simp] theorem apuLoad_p (m : List Byte) (s : State) : (apuLoad m s).p = s.p := by
  unfold apuLoad; split <;> rfl
@[simp] theorem apuLoad_paused (m : List Byte) (s : State) : (apuLoad m s).paused = s.paused := by
  unfold apuLoad; split <;> rfl
@[simp] theorem apuLoad_watchHit (m : List Byte) (s : State) : (apuLoad m s).watchHit = s.watchHit := by
  unfold apuLoad; split <;> rfl

/-! ## Only resume clears `paused` -/

/-- Being paused is closed under what instructions, entries and the ends of a step are made of: the end of a step may
set `paused` and never clears it (60_exceptions R300). -/
theorem moveClosed_paused : MoveClosed fun s => s.paused = true where
  regs _ _ _ _ _ _ _ _ h := h
  note _ _ h := h
  read a s h := (busRead_paused a s).trans h
  write a v s h := (busWrite_paused a v s).trans h
  result _ _ _ h := h
  finish s e h := by
    obtain ⟨pa, pr, l, he, hpa, _⟩ := finish_fields s e
    rw [he]
    exact hpa h
  unmapped _ _ _ := rfl
  nmiPause _ _ := rfl
  clearLog _ h := h

theorem moveKeeps_paused (m : HostMove) (hm : m ≠ .resume) : MoveKeeps (fun s => s.paused = true) m := by
  cases m with
  | resume => exact absurd rfl hm
  | onHblank n => exact fun s h => (onHblank_paused n s).trans h
  | systemReset => exact ⟨fun k s h => (s.setMapper_paused k).trans h, fun _ h => h⟩
  | wpEnable a k => exact fun s h => (setWatchpoint_paused a k true s).trans h
  | wpDisable a k => exact fun s h => (setWatchpoint_paused a k false s).trans h
  | cpuLoad l => exact fun s h => (cpuLoad_paused l s).trans h
  | apuLoad l => exact fun s h => (apuLoad_paused l s).trans h
  | apuReset | setStatus | bpEnable | bpDisable | bpEnableNmi | bpDisableNmi | bpClearAll | deliverIrq | boundary =>
    exact fun _ h => h
  | step | nmi | requestIrq | cpuReset | stepLog | cpuSave | apuSave | stepUnlessPaused => trivial

/-- Settles O40: everything a step is made of but the resume move leaves `paused` set once it is. -/
theorem onlyResumeClearsPaused : Obligations.OnlyResumeClearsPaused := by
  unfold Obligations.OnlyResumeClearsPaused
  intro s t hp hstep hne
  refine moveClosed_paused.step (fun _ _ h => h) s t (fun m hm => ?_) hp hstep
  exact moveKeeps_paused m fun e => hne (hm.trans (congrArg some e))

/-! ## Only a loaded snapshot clears bit 5 of P -/

/-- Bit 5 of P set is closed under what instructions, entries and the ends of a step are made of: no register change of
an instruction clears it (`BusClosed.regs`). -/
theorem moveClosed_reservedBit : MoveClosed fun s => getFlag s.p .r = true :=
  .of_fields
    { regs := fun _ _ _ _ _ _ _ hp h => hp h
      note := fun _ _ h => h
      read := fun a s h => by rwa [busRead_p]
      write := fun a v s h => by rwa [busWrite_p] }
    (fun _ _ _ h => h) (fun _ _ _ h => h) (fun _ _ _ h => h)

theorem moveKeeps_reservedBit (m : HostMove) (hm : ∀ l, m ≠ .cpuLoad l) :
    MoveKeeps (fun s => getFlag s.p .r = true) m := by
  have same {s t : State} (hp : t.p = s.p) (h : getFlag s.p .r = true) : getFlag t.p .r = true := by rwa [hp]
  cases m with
  | cpuLoad l => exact absurd rfl (hm l)
  | onHblank n => exact fun s h => same (onHblank_p n s) h
  | systemReset => exact ⟨fun k s h => same (s.setMapper_p k) h, fun _ h => h⟩
  | wpEnable a k => exact fun s h => same (setWatchpoint_p a k true s) h
  | wpDisable a k => exact fun s h => same (setWatchpoint_p a k false s) h
  | apuLoad l => exact fun s h => same (apuLoad_p l s) h
  | apuReset | setStatus | bpEnable | bpDisable | bpEnableNmi | bpDisableNmi | bpClearAll | resume | deliverIrq
  | boundary => exact fun _ h => h
  | step | nmi | requestIrq | cpuReset | stepLog | cpuSave | apuSave | stepUnlessPaused => trivial

/-- Settles O51: PLP and RTI force bit 5, the resets load 0x34, no other register change touches it. -/
theorem reservedBitStaysSet : Obligations.ReservedBitStaysSet := by
  unfold Obligations.ReservedBitStaysSet
  intro s t hr hstep hne
  refine moveClosed_reservedBit.step (fun _ _ h => h) s t (fun m hm => ?_) hr hstep
  exact moveKeeps_reservedBit m fun l e => hne l (hm.trans (congrArg some e))

/-! ## The interrupt flags of the APU come up in `onHblank` only -/

/-- No interrupt flag of the APU is set in `t` that is not set in `s`. -/
def RaisesNoFlag (s t : State) : Prop :=
  (t.apu.frameIrq = true → s.apu.frameIrq = true) ∧ (t.apu.dmcIrq = true → s.apu.dmcIrq = true)

theorem RaisesNoFlag.of_apu {s t : State} (h : t.apu = s.apu) : RaisesNoFlag s t := by
  unfold RaisesNoFlag
  rw [h]
  exact ⟨id, id⟩

theorem RaisesNoFlag.trans {s t u : State} (h1 : RaisesNoFlag s t) (h2 : RaisesNoFlag t u) : RaisesNoFlag s u :=
  ⟨h1.1 ∘ h2.1, h1.2 ∘ h2.2⟩

/-- A read of 0x4015 clears the frame flag; no other read touches either flag (50_apu R251, R262). -/
theorem apuRead_raisesNoFlag (i : BitVec 5) (s : State) : RaisesNoFlag s (apuRead i s).2 := by
  unfold apuRead
  split
  · exact ⟨fun h => absurd h Bool.false_ne_true, id⟩
  · split
    · exact ⟨id, id⟩
    · split <;> exact ⟨id, id⟩

theorem cartRead_apu (a : Addr) (s : State) : (cartRead a s).2.apu = s.apu := by
  simp only [cartRead, State.setMapper_apu]
  cases mapperResolve s.board a s.mapper <;> rfl

theorem busRead_raisesNoFlag (a : Addr) (s : State) : RaisesNoFlag s (busRead a s).2 := by
  unfold busRead
  split
  · exact .of_apu rfl
  · exact .of_apu rfl
  · exact apuRead_raisesNoFlag _ s
  · exact .of_apu (cartRead_apu a s)

/-- A register write leaves the frame flag and may clear the DMC flag (50_apu R250, R260). -/
theorem apuWrite_raisesNoFlag (i : BitVec 5) (v : Byte) (s : State) : RaisesNoFlag s (apuWrite i v s) := by
  obtain ⟨_, hf, hd⟩ := Apu.write_flags s.params.lengthTable s.apu i v
  have ha : (apuWrite i v s).apu = s.apu.write s.params.lengthTable i v := by
    unfold apuWrite; simp only; split <;> rfl
  unfold RaisesNoFlag
  rw [ha, hf, hd]
  refine ⟨id, fun h => ?_⟩
  split at h
  · cases h
  · exact h

theorem cartWrite_apu (a : Addr) (v : Byte) (s : State) : (cartWrite a v s).apu = s.apu := by
  unfold cartWrite
  split
  · exact State.setMapper_apu s _
  · split
    · split <;> rfl
    · rfl

theorem busWrite_raisesNoFlag (a : Addr) (v : Byte) (s : State) : RaisesNoFlag s (busWrite a v s) := by
  unfold busWrite
  split
  · exact .of_apu rfl
  · exact .of_apu rfl
  · exact apuWrite_raisesNoFlag _ v s
  · exact .of_apu (cartWrite_apu a v s)

/-- Raising no flag that `s` lacks is closed under what instructions, entries and the ends of a step are made of. -/
theorem moveClosed_raisesNoFlag (s : State) : MoveClosed (RaisesNoFlag s) :=
  .of_fields
    { regs := fun _ _ _ _ _ _ _ _ h => h
      note := fun _ _ h => h
      read := fun a t h => h.trans (busRead_raisesNoFlag a t)
      write := fun a v t h => h.trans (busWrite_raisesNoFlag a v t) }
    (fun _ _ _ h => h) (fun _ _ _ h => h) (fun _ _ _ h => h)

theorem moveKeeps_raisesNoFlag (s : State) (m : HostMove) (hh : ∀ n, m ≠ .onHblank n) (hl : ∀ l, m ≠ .apuLoad l) :
    MoveKeeps (RaisesNoFlag s) m := by
  have hreset : ∀ t, RaisesNoFlag s t → RaisesNoFlag s (apuReset t) := fun _ _ =>
    ⟨fun h => absurd h Bool.false_ne_true, fun h => absurd h Bool.false_ne_true⟩
  cases m with
  | onHblank n => exact absurd rfl (hh n)
  | apuLoad l => exact absurd rfl (hl l)
  | apuReset => exact hreset
  | systemReset => exact ⟨fun k t h => h.trans (.of_apu (t.setMapper_apu k)), hreset⟩
  | setStatus i k => cases i <;> exact fun _ h => h
  | wpEnable a k => exact fun t h => h.trans (.of_apu (setWatchpoint_apu a k true t))
  | wpDisable a k => exact fun t h => h.trans (.of_apu (setWatchpoint_apu a k false t))
  | cpuLoad l => exact fun t h => h.trans (.of_apu (cpuLoad_apu l t))
  | bpEnable | bpDisable | bpEnableNmi | bpDisableNmi | bpClearAll | resume | deliverIrq | boundary =>
    exact fun _ h => h
  | step | nmi | requestIrq | cpuReset | stepLog | cpuSave | apuSave | stepUnlessPaused => trivial

/-- A step whose move is neither `onHblank` nor `apu.load` raises no interrupt flag. -/
theorem step_raisesNoFlag (s t : State) (hstep : step s = .next t) (hh : ∀ n, s.script.head? ≠ some (.onHblank n))
    (hl : ∀ l, s.script.head? ≠ some (.apuLoad l)) : RaisesNoFlag s t := by
  refine (moveClosed_raisesNoFlag s).step (fun _ _ h => h) s t (fun m hm => ?_) ⟨id, id⟩ hstep
  exact moveKeeps_raisesNoFlag s m (fun n e => hh n (hm.trans (congrArg some e)))
    (fun l e => hl l (hm.trans (congrArg some e)))

/-- The DMC runs out with its interrupt on exactly at length 1, interrupt enabled, loop flag clear (50_apu R282). -/
theorem Dmc.scanline_irq_iff (c : Dmc) :
    c.scanline.2 = true ↔ c.dmaLength = 1 ∧ c.regs.r0.getLsbD 7 = true ∧ c.regs.r0.getLsbD 6 = false := by
  unfold Dmc.scanline
  split
  · have h1 : c.dmaLength ≠ 1 := by omega
    simp [h1]
  · split
    · have h1 : c.dmaLength = 1 := by omega
      cases h6 : c.regs.r0.getLsbD 6 <;> simp [h1]
    · have h1 : c.dmaLength ≠ 1 := by omega
      simp [h1]

theorem onHblank_frameIrq (n : Nat) (s : State) :
    (onHblank n s).apu.frameIrq =
      (s.apu.frameIrq || decide (n = s.params.vblankScanline) && !s.apu.frameInhibited) := by
  rw [onHblank_eq]

theorem onHblank_dmcIrq (n : Nat) (s : State) :
    (onHblank n s).apu.dmcIrq = (s.apu.dmcIrq || s.apu.dmc.scanline.2) := by
  rw [onHblank_eq]

/-- A step runs the move at the head of the script on the rest. -/
theorem step_of_head (s : State) (m : HostMove) (h : s.script.head? = some m) :
    step s = hostMove m { s with script := s.script.tail } := by
  obtain ⟨rest, hs⟩ : ∃ rest, s.script = m :: rest := List.head?_eq_some_iff.mp h
  unfold step nextMove
  rw [hs]
  rfl

/-- Settles O52: every move but `onHblank` and `apu.load` raises no flag, and `onHblank` raises each under exactly its
condition. -/
theorem interruptFlagsComeFromHblank : Obligations.InterruptFlagsComeFromHblank := by
  unfold Obligations.InterruptFlagsComeFromHblank
  intro s t hstep hload
  by_cases hh : ∃ n, s.script.head? = some (.onHblank n)
  · obtain ⟨n, hn⟩ := hh
    rw [step_of_head s _ hn] at hstep
    cases hstep
    constructor
    · intro h0 h1
      rw [State.returns_apu, onHblank_frameIrq] at h1
      simp only [h0, Bool.false_or, Bool.and_eq_true, decide_eq_true_eq, Bool.not_eq_true'] at h1
      exact ⟨h1.1 ▸ hn, h1.2⟩
    · intro h0 h1
      rw [State.returns_apu, onHblank_dmcIrq] at h1
      simp only [h0, Bool.false_or] at h1
      exact ⟨⟨n, hn⟩, (Dmc.scanline_irq_iff _).mp h1⟩
  · obtain ⟨hf, hd⟩ := step_raisesNoFlag s t hstep (fun n hn => hh ⟨n, hn⟩) hload
    exact ⟨fun h0 h1 => absurd (hf h1) (by simp [h0]), fun h0 h1 => absurd (hd h1) (by simp [h0])⟩

/-! ## Every step keeps the invariant -/

/-- The invariant without the clause on the watchpoint note, which an instruction in progress may break. -/
structure State.InvButNote (s : State) : Prop where
  memories : s.memoriesOk = true
  chr : s.chr.wf = true
  breakpoints : AddrSet.wf s.breakpoints = true
  readWatch : AddrSet.wf s.readWatch = true
  writeWatch : AddrSet.wf s.writeWatch = true
  log : s.stepLog.length ≤ s.params.stepLogCapacity
  apu : s.apu.bounded = true

theorem State.inv_iff (s : State) : s.Inv = true ↔ s.InvButNote ∧ s.watchHit = none := by
  simp only [State.Inv, State.debugOk, Bool.and_eq_true, decide_eq_true_eq]
  constructor
  · rintro ⟨⟨⟨hm, hc⟩, ⟨⟨⟨hb, hr⟩, hw⟩, hl⟩, hn⟩, ha⟩
    exact ⟨⟨hm, hc, hb, hr, hw, hl, ha⟩, hn⟩
  · rintro ⟨⟨hm, hc, hb, hr, hw, hl, ha⟩, hn⟩
    exact ⟨⟨⟨hm, hc⟩, ⟨⟨⟨hb, hr⟩, hw⟩, hl⟩, hn⟩, ha⟩

/-- A change of the devices keeps the invariant when it keeps the ranges of the APU. -/
theorem State.InvButNote.devices {s t : State} (h : s.InvButNote) (hd : SameButDevices s t)
    (ha : t.apu.bounded = true) : t.InvButNote := by
  rw [hd]
  exact { h with apu := ha }

theorem State.InvButNote.busWrite {s : State} (h : s.InvButNote) (a : Addr) (v : Byte) :
    (busWrite a v s).InvButNote where
  memories := busWrite_memoriesOk a v s h.memories
  chr := by rw [busWrite_chr]; exact h.chr
  breakpoints := by rw [busWrite_breakpoints]; exact h.breakpoints
  readWatch := by rw [busWrite_readWatch]; exact h.readWatch
  writeWatch := by rw [busWrite_writeWatch]; exact h.writeWatch
  log := by rw [busWrite_stepLog, busWrite_params]; exact h.log
  apu := busWrite_bounded a v s h.apu

theorem moveClosed_invButNote : MoveClosed State.InvButNote :=
  .of_fields
    { regs := fun _ _ _ _ _ _ _ _ h => { h with }
      note := fun _ _ h => { h with }
      read := fun a s h => h.devices (busRead_sameButDevices a s) (busRead_bounded a s h.apu)
      write := fun a v _ h => h.busWrite a v }
    (fun _ _ _ h => { h with }) (fun _ _ _ h => { h with }) (fun _ _ hl h => { h with log := hl })

/-- A change of the APU within its ranges keeps the invariant. -/
theorem State.InvButNote.withApuEvents {s : State} (h : s.InvButNote) (u : Apu) (ev : List Event) (tr : Bool)
    (hu : u.bounded = true) : (s.withApuEvents u ev tr).InvButNote := { h with apu := hu }

theorem Apu.bounded_reset (u : Apu) (h : u.bounded = true) : u.reset.bounded = true := by
  simp only [Apu.bounded, Bool.and_eq_true] at h
  obtain ⟨⟨_, h0⟩, h1⟩ := h
  simp only [Apu.bounded, Apu.reset, Bool.and_eq_true]
  exact ⟨⟨⟨⟨⟨⟨rfl, rfl⟩, rfl⟩, rfl⟩, rfl⟩, h0⟩, h1⟩

theorem Apu.bounded_setStatus (u : Apu) (i : Pad) (mask : Byte) (h : u.bounded = true) :
    (u.setStatus i mask).bounded = true := by
  simp only [Apu.bounded, Bool.and_eq_true] at h
  obtain ⟨⟨hc, h0⟩, h1⟩ := h
  cases i <;> simp only [Apu.bounded, Apu.setStatus, Bool.and_eq_true]
  · exact ⟨⟨hc, padLegal_mask mask⟩, h1⟩
  · exact ⟨⟨hc, h0⟩, padLegal_mask mask⟩

theorem State.InvButNote.onHblank {s : State} (h : s.InvButNote) (n : Nat) : (onHblank n s).InvButNote := by
  have hb := onHblank_bounded n s h.apu
  obtain ⟨u, ev, tr, he⟩ := onHblank_fields n s
  rw [he] at hb ⊢
  exact h.withApuEvents u ev tr hb

theorem State.InvButNote.setWatchpoint {s : State} (h : s.InvButNote) (a : Addr) (k : Access) (on : Bool) :
    (setWatchpoint a k on s).InvButNote := by
  have hset (l : List Nat) (hl : AddrSet.wf l = true) :
      AddrSet.wf (if on then AddrSet.insert a.toNat l else AddrSet.erase a.toNat l) = true := by
    cases on
    · exact AddrSet.wf_erase l _ hl
    · exact AddrSet.wf_insert l _ hl
  cases k
  · exact { h with readWatch := hset _ h.readWatch }
  · exact { h with writeWatch := hset _ h.writeWatch }

theorem State.InvButNote.cpuLoad {s : State} (h : s.InvButNote) (l : CpuSnapshot) : (cpuLoad l s).InvButNote := by
  unfold Machine.cpuLoad
  split <;> exact { h with }

theorem State.InvButNote.apuLoad {s : State} (h : s.InvButNote) (m : List Byte) : (apuLoad m s).InvButNote := by
  unfold Machine.apuLoad
  split
  · exact { h with apu := s.apu.bounded_loaded _ _ h.apu }
  · exact { h with }

theorem moveKeeps_invButNote (m : HostMove) : MoveKeeps State.InvButNote m := by
  have hreset (s : State) (h : s.InvButNote) : (apuReset s).InvButNote := { h with apu := s.apu.bounded_reset h.apu }
  cases m with
  | onHblank n => exact fun _ h => h.onHblank n
  | apuReset => exact hreset
  | systemReset =>
    refine ⟨fun k s h => h.devices (setMapper_sameButDevices k s) ?_, hreset⟩
    rw [State.setMapper_apu]
    exact h.apu
  | setStatus i k => exact fun s h => { h with apu := s.apu.bounded_setStatus i k h.apu }
  | bpEnable a => exact fun _ h => { h with breakpoints := AddrSet.wf_insert _ _ h.breakpoints }
  | bpDisable a => exact fun _ h => { h with breakpoints := AddrSet.wf_erase _ _ h.breakpoints }
  | bpClearAll => exact fun _ h => { h with breakpoints := rfl }
  | wpEnable a k => exact fun _ h => h.setWatchpoint a k true
  | wpDisable a k => exact fun _ h => h.setWatchpoint a k false
  | cpuLoad l => exact fun _ h => h.cpuLoad l
  | apuLoad l => exact fun _ h => h.apuLoad l
  | bpEnableNmi | bpDisableNmi | resume | deliverIrq | boundary => exact fun _ h => { h with }
  | step | nmi | requestIrq | cpuReset | stepLog | cpuSave | apuSave | stepUnlessPaused => trivial

/-! ### The watchpoint note between moves

Only an execute phase sets the note, and the end of a step clears it (60_exceptions R315). -/

@[simp] theorem busRead16_watchHit (a : Addr) (s : State) : (busRead16 a s).2.watchHit = s.watchHit := by
  rw [busRead16_sameButDevices a s]

@[simp] theorem hardwareEntry_watchHit (vec : Addr) (s : State) : (hardwareEntry vec s).watchHit = s.watchHit := by
  simp [hardwareEntry, enterInterrupt_eq, push_eq, pushWord_eq]

@[simp] theorem nmiEntry_watchHit (s : State) : (nmiEntry s).watchHit = s.watchHit := by
  unfold nmiEntry
  simp only
  split <;> exact hardwareEntry_watchHit Config.vecNmi s

@[simp] theorem requestIrq_watchHit (s : State) : (requestIrq s).watchHit = s.watchHit := by
  unfold requestIrq
  split
  · rfl
  · exact hardwareEntry_watchHit Config.vecIrq s

@[simp] theorem deliverIrq_watchHit (s : State) : (deliverIrq s).watchHit = s.watchHit := by
  unfold deliverIrq
  split
  · split
    · exact requestIrq_watchHit s
    · rfl
  · split
    · exact requestIrq_watchHit _
    · rfl
  · rfl

@[simp] theorem cpuReset_watchHit (s : State) : (cpuReset s).watchHit = s.watchHit := by
  simp [cpuReset]

@[simp] theorem systemReset_watchHit (s : State) : (systemReset s).watchHit = s.watchHit := by
  simp [systemReset, apuReset]

theorem cpuStep_watchHit (s t : State) (hs : s.watchHit = none) (hc : cpuStep s = .next t) : t.watchHit = none := by
  rcases fetch_outcomes s with ⟨_, hf⟩ | ⟨i, s1, _, hf, _⟩
  · simp only [cpuStep, hf] at hc
    cases hc
    exact (busRead_watchHit s.pc s).trans hs
  · simp only [cpuStep, hf] at hc
    cases hx : exec i s1 with
    | next u =>
      obtain ⟨pa, pr, l, he, _⟩ := finish_fields u (logEntryOf i s.pc)
      simp only [hx, he] at hc
      cases hc
      rfl
    | fault f => simp [hx] at hc
    | refused r => simp [hx] at hc

theorem hostMove_watchHit (m : HostMove) (s t : State) (hs : s.watchHit = none) (hm : hostMove m s = .next t) :
    t.watchHit = none := by
  cases m <;> simp only [hostMove] at hm
  case step =>
    split at hm
    · cases hm
    · exact cpuStep_watchHit s t hs hm
  case stepUnlessPaused =>
    split at hm
    · cases hm
      exact hs
    · exact cpuStep_watchHit s t hs hm
  all_goals cases hm
  case nmi => exact (nmiEntry_watchHit s).trans hs
  case requestIrq => exact (requestIrq_watchHit s).trans hs
  case onHblank n => exact (onHblank_watchHit n s).trans hs
  case cpuReset => exact (cpuReset_watchHit s).trans hs
  case systemReset => exact (systemReset_watchHit s).trans hs
  case wpEnable a k => exact (setWatchpoint_watchHit a k true s).trans hs
  case wpDisable a k => exact (setWatchpoint_watchHit a k false s).trans hs
  case cpuLoad l => exact (cpuLoad_watchHit l s).trans hs
  case apuLoad l => exact (apuLoad_watchHit l s).trans hs
  case deliverIrq => exact (deliverIrq_watchHit _).trans hs
  all_goals exact hs

theorem step_watchHit (s t : State) (hs : s.watchHit = none) (hstep : step s = .next t) : t.watchHit = none := by
  rcases step_cases s t hstep with ⟨_, hm⟩ | ⟨m, rest, _, hm⟩
  · exact hostMove_watchHit .step s t hs hm
  · exact hostMove_watchHit m { s with script := rest } t hs hm

/-- Settles O49: register changes, bus accesses and host updates keep every clause but the one on the watchpoint note,
which every move restores. -/
theorem stepKeepsInvariant : Obligations.StepKeepsInvariant := by
  unfold Obligations.StepKeepsInvariant
  intro s t hs hstep
  obtain ⟨hinv, hnote⟩ := s.inv_iff.mp hs
  exact t.inv_iff.mpr
    ⟨moveClosed_invButNote.step (fun _ _ h => { h with }) s t (fun m _ => moveKeeps_invButNote m) hinv hstep,
      step_watchHit s t hnote hstep⟩

/-! ## The resets -/

/-- What a reset of the CPU does: P, S, PC and the step log get their values, the devices are as the vector's two reads
leave them (70_reset_and_hazards R330). -/
theorem cpuReset_eq (s : State) :
    cpuReset s =
      { (busRead16 Config.vecReset s).2 with
        p := 0x34#8
        sp := s.sp - 3
        pc := (busRead16 Config.vecReset s).1
        stepLog := [] } := by
  have hr := busRead16_reframe Config.vecReset s ((s.setP 0x34#8).setSp (s.sp - 3))
  have hs : s.reframe ((s.setP 0x34#8).setSp (s.sp - 3)) = (s.setP 0x34#8).setSp (s.sp - 3) := rfl
  rw [hs] at hr
  unfold cpuReset
  rw [hr, busRead16_sameButDevices Config.vecReset s]
  rfl

/-- A read in the cartridge range neither reads nor writes the APU, and reads neither the events nor the trigger note
(20_memory R52). -/
theorem cartRead_withApuEvents (a : Addr) (s : State) (u : Apu) (ev : List Event) (tr : Bool) : ∃ ev' tr',
    cartRead a (s.withApuEvents u ev tr) = ((cartRead a s).1, (cartRead a s).2.withApuEvents u ev' tr') := by
  have hb : (s.withApuEvents u ev tr).board = s.board := rfl
  have hm : (s.withApuEvents u ev tr).mapper = s.mapper := rfl
  simp only [cartRead, hb, hm, setMapper_eq]
  cases mapperResolve s.board a s.mapper <;> exact ⟨_, _, rfl⟩

/-- The reset vector lies in the cartridge range, so it reads alike whatever the APU, the events and the trigger note. -/
theorem busRead16_vecReset_withApuEvents (s : State) (u : Apu) (ev : List Event) (tr : Bool) : ∃ ev' tr',
    busRead16 Config.vecReset (s.withApuEvents u ev tr) =
      ((busRead16 Config.vecReset s).1, (busRead16 Config.vecReset s).2.withApuEvents u ev' tr') := by
  have hlo (t : State) : busRead Config.vecReset t = cartRead Config.vecReset t := rfl
  have hhi (t : State) : busRead (Config.vecReset + 1) t = cartRead (Config.vecReset + 1) t := rfl
  simp only [busRead16, hlo, hhi]
  obtain ⟨ev1, tr1, h1⟩ := cartRead_withApuEvents Config.vecReset s u ev tr
  obtain ⟨ev2, tr2, h2⟩ :=
    cartRead_withApuEvents (Config.vecReset + 1) (cartRead Config.vecReset s).2 u ev1 tr1
  rw [h1]
  dsimp only
  rw [h2]
  exact ⟨ev2, tr2, rfl⟩

/-- The machine whose mapper a system reset has reset (70_reset_and_hazards R333). -/
def State.mapperReset (s : State) : State := { s with mapper := mapperOnReset s.board s.mapper }

/-- What a system reset does: the mapper's `on_reset` first, the APU's reset, and the CPU's, whose vector is read through
the new mapper state (70_reset_and_hazards R333). -/
theorem systemReset_eq (s : State) : ∃ ev tr,
    systemReset s =
      { s with
        p := 0x34#8
        sp := s.sp - 3
        pc := (busRead16 Config.vecReset s.mapperReset).1
        stepLog := []
        mapper := (busRead16 Config.vecReset s.mapperReset).2.mapper
        apu := s.apu.reset
        draws := (busRead16 Config.vecReset s.mapperReset).2.draws
        events := ev
        irqTrigger := tr } := by
  obtain ⟨ev0, tr0, hm⟩ := setMapper_fields (mapperOnReset s.board s.mapper) s
  have ha : apuReset (s.setMapper (mapperOnReset s.board s.mapper)) =
      s.mapperReset.withApuEvents s.apu.reset ev0 tr0 := by rw [hm]; rfl
  obtain ⟨ev, tr, hr⟩ := busRead16_vecReset_withApuEvents s.mapperReset s.apu.reset ev0 tr0
  refine ⟨ev, tr, ?_⟩
  unfold systemReset
  rw [ha, cpuReset_eq, hr, busRead16_sameButDevices Config.vecReset s.mapperReset]
  rfl

/-- On NROM the reset vector is the word at the end of PRG ROM, read without side effect (20_memory R65). -/
theorem busRead16_vecReset_nrom (s : State) (size : PrgSize) (h : s.board = .nrom size) :
    busRead16 Config.vecReset s =
      (wordOf (s.prgRom.read (prgBytes size - 3)) (s.prgRom.read (prgBytes size - 4)), s) := by
  have cell (a : Addr) (off : Nat) (hd : decodeAddr a = .cart)
      (hr : mapperResolve (.nrom size) a s.mapper = .prg off) : busRead a s = (s.prgRom.read off, s) :=
    busRead_cell a s (.prg off) (by simp [State.readCell, hd, h, hr])
  have hlo := cell Config.vecReset (prgBytes size - 4) rfl (by cases size <;> rfl)
  have hhi := cell (Config.vecReset + 1) (prgBytes size - 3) rfl (by cases size <;> rfl)
  simp only [busRead16, hlo, hhi]

/-- Setting the mapper's state to what it is raises no line and so triggers nothing. -/
theorem State.setMapper_self (s : State) : s.setMapper s.mapper = s := by
  simp [setMapper_eq]

/-- On NROM a system reset draws nothing and triggers nothing (20_memory R65, 70_reset_and_hazards R333). -/
theorem systemReset_nrom (s : State) (size : PrgSize) (h : s.board = .nrom size) :
    systemReset s =
      { s with
        p := 0x34#8
        sp := s.sp - 3
        pc := wordOf (s.prgRom.read (prgBytes size - 3)) (s.prgRom.read (prgBytes size - 4))
        stepLog := []
        apu := s.apu.reset } := by
  have hm : mapperOnReset s.board s.mapper = s.mapper := by rw [h]; rfl
  unfold systemReset
  rw [hm, State.setMapper_self, cpuReset_eq, busRead16_vecReset_nrom (apuReset s) size h]
  rfl

/-- Settles O46: what a system reset does to every field (`systemReset_eq`), and the same of the constructed machine. -/
theorem systemReset_spec : Obligations.SystemReset := by
  unfold Obligations.SystemReset
  constructor
  · intro s
    obtain ⟨ev, tr, he⟩ := systemReset_eq s
    refine ⟨(systemReset s).returns .nothing, rfl, ?_⟩
    rw [he]
    exact ⟨rfl, rfl, rfl, rfl, rfl, rfl, rfl, rfl, rfl, rfl, rfl, rfl, rfl, rfl, rfl,
      State.cellByte_congr rfl rfl rfl, rfl, rfl, rfl, rfl, rfl, rfl⟩
  · rintro board params prgRom chr ram cartRam a x y sp p pc u s rfl
    refine ⟨by cases board <;> rfl, ?_⟩
    obtain ⟨ev, tr, he⟩ := systemReset_eq (State.construct board params prgRom chr ram cartRam a x y sp p pc u)
    refine ⟨_, congrArg (fun t : State => Host.Outcome.next (t.returns .nothing)) he, ?_⟩
    refine ⟨rfl, rfl, rfl, rfl, rfl, rfl, rfl, rfl, rfl, rfl, rfl, rfl, rfl, rfl, rfl, rfl, rfl, rfl, rfl, ?_⟩
    rintro size rfl
    have hv := busRead16_vecReset_nrom
      (State.construct (.nrom size) params prgRom chr ram cartRam a x y sp p pc u).mapperReset size rfl
    exact ⟨congrArg (·.2.mapper) hv, congrArg (·.1) hv⟩

/-- Settles O47: the values are read off the reset state; a system reset of the constructed NROM machine overwrites
whatever P, PC and the APU were (`systemReset_nrom`). -/
theorem resetStateValues : Obligations.ResetStateValues := by
  unfold Obligations.ResetStateValues
  have hpulse (c : Pulse) (hc : c = State.reset.apu.p1 ∨ c = State.reset.apu.p2) : c = .zero := hc.elim id id
  refine ⟨rfl, rfl, rfl, rfl, rfl, rfl, rfl, by decide, rfl, rfl, rfl, rfl, rfl, rfl, ?_, rfl, rfl, rfl, rfl, rfl, ?_, ?_⟩
  · intro c hc
    rw [hpulse c hc]
    exact ⟨rfl, rfl, rfl, rfl, rfl, rfl⟩
  · exact (congrArg (·.1) (busRead16_vecReset_nrom State.reset .k32 rfl)).symm
  · intro p pc u
    have hvector : wordOf (Memory.read [] (prgBytes .k32 - 3)) (Memory.read [] (prgBytes .k32 - 4)) = 0x0000#16 := rfl
    simp only [hostMove]
    rw [systemReset_nrom _ .k32 rfl]
    exact congrArg (fun v => Host.Outcome.next { State.reset with pc := v }) hvector

/-- Settles O48: nothing is listed, nothing is logged, every counter of the APU is 0. -/
theorem resetMeetsInvariant : Obligations.ResetMeetsInvariant := by
  unfold Obligations.ResetMeetsInvariant
  rw [State.inv_iff]
  exact ⟨⟨rfl, rfl, rfl, rfl, rfl, Nat.zero_le _, by decide⟩, rfl⟩

end Sys2Proof.Machine

/-! # Family 20_memory: the bus

The first section says once where an address falls. Each further section says what an access of one region does (RAM, the
APU window, the cartridge range on NROM and on a custom board), then settles the statements about that region. -/

namespace Sys2Proof.Machine

/-! ## Where an address falls (20_memory R53) -/

theorem decodeAddr_ppu (a : Addr) (hlo : 0x2000 ≤ a.toNat) (hhi : a.toNat < 0x4000) :
    decodeAddr a = .ppu (0x2000 + a.toNat % 8) := by
  simp [decodeAddr, hhi, Nat.not_lt.mpr hlo]

theorem decodeAddr_apu (a : Addr) (hlo : 0x4000 ≤ a.toNat) (hhi : a.toNat < 0x4020) :
    decodeAddr a = .apu (a.setWidth 5) := by
  have hram : ¬ a.toNat < 0x2000 := by omega
  simp [decodeAddr, hhi, hram, Nat.not_lt.mpr hlo]

theorem decodeAddr_cart (a : Addr) (hlo : 0x4020 ≤ a.toNat) : decodeAddr a = .cart := by
  have hram : ¬ a.toNat < 0x2000 := by omega
  have hppu : ¬ a.toNat < 0x4000 := by omega
  simp [decodeAddr, hram, hppu, Nat.not_lt.mpr hlo]

theorem busRead_cart (a : Addr) (s : State) (h : 0x4020 ≤ a.toNat) : busRead a s = cartRead a s := by
  simp only [busRead, decodeAddr_cart a h]

theorem busWrite_cart (a : Addr) (v : Byte) (s : State) (h : 0x4020 ≤ a.toNat) :
    busWrite a v s = cartWrite a v s := by
  simp only [busWrite, decodeAddr_cart a h]

theorem busWrite_apu (a : Addr) (v : Byte) (s : State) (hlo : 0x4000 ≤ a.toNat) (hhi : a.toNat < 0x4020) :
    busWrite a v s = apuWrite (a.setWidth 5) v s := by
  simp only [busWrite, decodeAddr_apu a hlo hhi]

/-- The index of a register of the APU window is its distance from 0x4000. -/
theorem apuIndex_toNat (a : Addr) (hlo : 0x4000 ≤ a.toNat) (hhi : a.toNat < 0x4020) :
    (a.setWidth 5).toNat = a.toNat - 0x4000 := by
  rw [BitVec.toNat_setWidth]
  omega

/-- In the APU window a register index names one address. -/
theorem apuIndex_eq_iff (a : Addr) (i : BitVec 5) (hlo : 0x4000 ≤ a.toNat) (hhi : a.toNat < 0x4020) :
    a.setWidth 5 = i ↔ a = 0x4000#16 + i.setWidth 16 := by
  have hidx := apuIndex_toNat a hlo hhi
  rw [← BitVec.toNat_inj, ← BitVec.toNat_inj, hidx, BitVec.toNat_add, BitVec.toNat_setWidth]
  have hi := i.isLt
  simp only [BitVec.toNat_ofNat]
  omega

/-! ## RAM and its mirrors -/

/-- Settles O12: `busRead_inRam` and `busWrite_inRam`, which say it for the bus. -/
theorem ramAndMirrors : Obligations.RamAndMirrors := by
  unfold Obligations.RamAndMirrors
  intro a v s h
  exact ⟨busRead_inRam a s h, busWrite_inRam a v s h⟩

/-! ## Reading what was written -/

/-- Which cell an address reads depends on the board only: a custom board reads none without side effect, and NROM has no
banks to select (20_memory R65). -/
theorem State.readCell_congr (b : Addr) {s t : State} (h : t.board = s.board) : t.readCell b = s.readCell b := by
  unfold State.readCell
  rw [h]
  cases s.board <;> rfl

/-- Settles O13: the read after the write gives the byte of the same cell (`State.readCell_congr`, `busRead_cell`); that
byte is `v` where the write stores there (`busWrite_stores`) and is kept elsewhere (`busWrite_cellByte`). -/
theorem readGivesLatestWrite : Obligations.ReadGivesLatestWrite := by
  unfold Obligations.ReadGivesLatestWrite
  intro a b v c s hs hc
  have hc' : (busWrite a v s).readCell b = some c := (State.readCell_congr b (busWrite_board a v s)).trans hc
  rw [busRead_cell b s c hc, busRead_cell b _ c hc']
  split
  · next hw => exact busWrite_stores a v s c hs hw
  · next hw => exact busWrite_cellByte a v s c hw

/-! ## Register accesses -/

/-- A register of the window without read semantics answers a draw (50_apu R251). -/
theorem apuRead_unread (i : BitVec 5) (s : State) (h15 : i ≠ 0x15) (h16 : i ≠ 0x16) (h17 : i ≠ 0x17) :
    apuRead i s = s.drawByte := by
  unfold apuRead
  rw [if_neg h15, if_neg h16, if_neg h17]

/-- An APU write changes the APU, and the events at 0x14 (50_apu R250, 20_memory R55). -/
theorem apuWrite_eq (i : BitVec 5) (v : Byte) (s : State) :
    apuWrite i v s =
      { s with
        apu := s.apu.write s.params.lengthTable i v
        events := if i = 0x14 then .spriteDma v :: s.events else s.events } := by
  unfold apuWrite
  split <;> rfl

/-- The mirror takes the byte written, and no other byte of it changes (50_apu R250). -/
theorem Apu.reg_write (t : Vector Byte 32) (u : Apu) (i j : BitVec 5) (v : Byte) :
    (u.write t i v).reg j = if j = i then v else u.reg j := by
  obtain ⟨hregs, -, -⟩ := Apu.write_flags t u i v
  rw [← Apu.reg_setReg]
  unfold Apu.reg
  simp only [hregs]

/-- A write of 0x14 or of 0x17 and above stores in the mirror and does nothing further (50_apu R250, R253). -/
theorem Apu.write_storesOnly (t : Vector Byte 32) (u : Apu) (i : BitVec 5) (v : Byte) (h : i = 0x14 ∨ 0x17 ≤ i.toNat) :
    u.write t i v = u.setReg i v := by
  have hne (j : BitVec 5) (hj : j = 0x15 ∨ j = 0x16) : i ≠ j := by
    rintro rfl
    rcases hj with rfl | rfl <;> exact absurd h (by decide)
  have hchan : ¬ i.toNat ≤ 0x13 := by
    rcases h with rfl | h
    · decide
    · omega
  unfold Apu.write
  simp only [if_neg hchan, if_neg (hne 0x15 (.inl rfl)), if_neg (hne 0x16 (.inr rfl))]

/-- Settles O15: the bus write is the APU write of the window's index (`apuWrite_eq`), whose effect on the mirror and the
flags is `Apu.reg_write` and `Apu.write_flags`. -/
theorem apuWindowWrites : Obligations.ApuWindowWrites := by
  unfold Obligations.ApuWindowWrites
  intro a v s hlo hhi
  have hidx := apuIndex_toNat a hlo hhi
  have h14 : a.setWidth 5 = (0x14 : BitVec 5) ↔ a = 0x4014 := apuIndex_eq_iff a 0x14 hlo hhi
  have h15 : a.setWidth 5 = (0x15 : BitVec 5) ↔ a = 0x4015 := apuIndex_eq_iff a 0x15 hlo hhi
  obtain ⟨-, hframe, hdmc⟩ := Apu.write_flags s.params.lengthTable s.apu (a.setWidth 5) v
  rw [busWrite_apu a v s hlo hhi, apuWrite_eq]
  refine ⟨?mirror, ?others, ?events, hframe, ?dmc, ?further, rfl⟩
  case mirror => exact (Apu.reg_write _ _ _ _ _).trans (if_pos rfl)
  case others => exact fun j hj => (Apu.reg_write _ _ _ _ _).trans (if_neg hj)
  case events => simp only [h14]
  case dmc => exact fun hne => hdmc.trans (if_neg (h15.not.mpr hne))
  case further =>
    intro h
    exact Apu.write_storesOnly _ _ _ _ (h.imp h14.mpr (by omega))

/-! ## The cartridge range (20_memory R52, R53) -/

/-- Cartridge RAM after a store of `v` at a resolved location. -/
def storeAt (l : Location) (v : Byte) (ram : Memory) : Memory :=
  match l with
  | .cartRam off => ram.write off v
  | .prg _ => ram
  | .unbacked => ram

/-- A read in the cartridge range, with the board's side effect on the state the read began in. -/
theorem cartRead_eq (a : Addr) (s : State) :
    cartRead a s =
      ((readLocation (mapperResolve s.board a s.mapper) s).1,
        (readLocation (mapperResolve s.board a s.mapper) s).2.setMapper (mapperOnRead s.board a s.mapper)) := by
  unfold cartRead
  cases mapperResolve s.board a s.mapper <;> rfl

/-- A write above cartridge RAM that the mapper does not claim is ignored. -/
theorem cartWrite_ignored (a : Addr) (v : Byte) (s : State) (hc : mapperClaims s.board a = false)
    (h : 0x8000 ≤ a.toNat) : cartWrite a v s = s := by
  simp [cartWrite, hc, Nat.not_lt.mpr h]

/-- A write below 0x8000 that the mapper does not claim stores at the location the mapper resolves, and that alone. -/
theorem cartWrite_unclaimed (a : Addr) (v : Byte) (s : State) (hc : mapperClaims s.board a = false)
    (h : a.toNat < 0x8000) :
    cartWrite a v s = { s with cartRam := storeAt (mapperResolve s.board a s.mapper) v s.cartRam } := by
  simp only [cartWrite, hc, Bool.false_eq_true, if_false, if_pos h]
  cases mapperResolve s.board a s.mapper <;> rfl

/-! ## The NROM board (20_memory R65) -/

section Nrom

variable {s : State} {size : PrgSize} (hb : s.board = .nrom size)
include hb

theorem mapperClaims_nrom (a : Addr) : mapperClaims s.board a = false := by
  rw [hb]
  rfl

theorem mapperResolve_nrom_prg (a : Addr) (h : 0x8000 ≤ a.toNat) :
    mapperResolve s.board a s.mapper = .prg ((a.toNat - 0x8000) % prgBytes size) := by
  simp only [hb, mapperResolve, if_pos h]

theorem mapperResolve_nrom_cartRam (a : Addr) (hlo : 0x6000 ≤ a.toNat) (hhi : a.toNat < 0x8000) :
    mapperResolve s.board a s.mapper = .cartRam (a.toNat - 0x6000) := by
  simp only [hb, mapperResolve, if_neg (Nat.not_le.mpr hhi), if_pos hlo]

theorem mapperResolve_nrom_unbacked (a : Addr) (h : a.toNat < 0x6000) :
    mapperResolve s.board a s.mapper = .unbacked := by
  have hprg : ¬ 0x8000 ≤ a.toNat := by omega
  simp only [hb, mapperResolve, if_neg hprg, if_neg (Nat.not_le.mpr h)]

/-- A read of the NROM board is the read of the location and nothing else: it has no side effect. -/
theorem busRead_nrom (a : Addr) (h : 0x4020 ≤ a.toNat) :
    busRead a s = readLocation (mapperResolve s.board a s.mapper) s := by
  have hm : mapperOnRead s.board a s.mapper = s.mapper := by rw [hb]; rfl
  rw [busRead_cart a s h, cartRead_eq, hm]
  cases mapperResolve s.board a s.mapper <;> exact Prod.ext rfl (State.setMapper_self _)

end Nrom

/-- Settles O16: NROM resolves PRG ROM, then cartridge RAM (`mapperResolve_nrom_prg`, `mapperResolve_nrom_cartRam`); it
claims no write (`mapperClaims_nrom`), and its line is low. -/
theorem nromBoard : Obligations.NromBoard := by
  unfold Obligations.NromBoard
  intro size a v s hb
  have hclaims := mapperClaims_nrom hb a
  refine ⟨?prg, ?cartRam, ?irq⟩
  case prg =>
    intro h
    rw [busRead_nrom hb a (by omega), busWrite_cart a v s (by omega), mapperResolve_nrom_prg hb a h]
    exact ⟨by cases size <;> rfl, cartWrite_ignored a v s hclaims h⟩
  case cartRam =>
    intro hlo hhi
    rw [busRead_nrom hb a (by omega), busWrite_cart a v s (by omega), cartWrite_unclaimed a v s hclaims hhi,
      mapperResolve_nrom_cartRam hb a hlo hhi]
    exact ⟨rfl, rfl⟩
  case irq =>
    unfold State.irqAsserted
    rw [hb]
    exact Bool.or_false _

/-! ## PPU registers and what nothing backs -/

/-- Settles O14: the region decides the access (`decodeAddr_ppu`, `decodeAddr_apu`, `decodeAddr_cart`); below 0x6000 NROM
backs nothing (`mapperResolve_nrom_unbacked`). -/
theorem ppuAndUnbackedAccesses : Obligations.PpuAndUnbackedAccesses := by
  unfold Obligations.PpuAndUnbackedAccesses
  intro a v s
  refine ⟨?ppu, ?apu, ?unbacked⟩
  case ppu =>
    intro hlo hhi
    simp only [busRead, busWrite, decodeAddr_ppu a hlo hhi]
    exact ⟨rfl, rfl⟩
  case apu =>
    intro hlo hhi h15 h16 h17
    have hne (i : BitVec 5) (h : a ≠ 0x4000#16 + i.setWidth 16) : a.setWidth 5 ≠ i :=
      (apuIndex_eq_iff a i hlo hhi).not.mpr h
    simp only [busRead, decodeAddr_apu a hlo hhi]
    exact apuRead_unread _ s (hne 0x15 h15) (hne 0x16 h16) (hne 0x17 h17)
  case unbacked =>
    intro size hb hlo hhi
    rw [busRead_nrom hb a hlo, busWrite_cart a v s hlo,
      cartWrite_unclaimed a v s (mapperClaims_nrom hb a) (by omega), mapperResolve_nrom_unbacked hb a hhi]
    exact ⟨rfl, rfl⟩

/-! ## A custom board (20_memory R62) -/

/-- Whether a change of its state from `m` to `m'` raises the line of a board (20_memory R64). -/
def boardRaises (id : Nat) (m m' : MapperState) : Bool := !Config.boardIrq id m && Config.boardIrq id m'

theorem boardRaises_iff (id : Nat) (m m' : MapperState) :
    boardRaises id m m' = true ↔ Config.boardIrq id m = false ∧ Config.boardIrq id m' = true := by
  simp [boardRaises]

/-- The board's state after a write in its range: a bank switch where the board claims the address. -/
def boardMapperAfter (id : Nat) (a : Addr) (v : Byte) (m : MapperState) : MapperState :=
  if Config.boardClaims id a = true then maskBanks id (Config.boardOnWrite id a v m) else m

/-- Cartridge RAM after a write in the range of a board: stored below 0x8000 where the board does not claim the address. -/
def boardRamAfter (id : Nat) (a : Addr) (v : Byte) (m : MapperState) (ram : Memory) : Memory :=
  if Config.boardClaims id a = true ∨ 0x8000 ≤ a.toNat then ram else storeAt (Config.boardResolve id a m) v ram

/-- Only a claimed write raises the line. -/
theorem boardRaises_boardMapperAfter (id : Nat) (a : Addr) (v : Byte) (m : MapperState) :
    boardRaises id m (boardMapperAfter id a v m) = true ↔
      Config.boardClaims id a = true ∧ Config.boardIrq id m = false ∧
        Config.boardIrq id (boardMapperAfter id a v m) = true := by
  rw [boardRaises_iff]
  by_cases hc : Config.boardClaims id a = true
  · simp [hc]
  · simp [boardMapperAfter, hc]

theorem boardMapperAfter_other (id : Nat) (a : Addr) (v : Byte) (m : MapperState) :
    (boardMapperAfter id a v m).other =
      if Config.boardClaims id a = true then (Config.boardOnWrite id a v m).other else m.other := by
  unfold boardMapperAfter
  split <;> rfl

/-- A bank switch masks every index by the number of banks of its slot. -/
theorem boardMapperAfter_banks (id : Nat) (a : Addr) (v : Byte) (m : MapperState) (k : Nat) :
    (boardMapperAfter id a v m).banks[k]? =
      if Config.boardClaims id a = true
        then (Config.boardOnWrite id a v m).banks[k]?.map (· % (Config.boardLastBank id k + 1))
        else m.banks[k]? := by
  unfold boardMapperAfter
  split
  · exact List.getElem?_mapIdx
  · rfl

section Custom

variable {id : Nat} {s : State} (hb : s.board = .custom id)
include hb

/-- A change of the state of a custom board: the new state, and the trigger where it raises the line. -/
theorem setMapper_custom (m : MapperState) :
    s.setMapper m =
      { s with
        mapper := m
        events := if boardRaises id s.mapper m = true then .irqTrigger :: s.events else s.events
        irqTrigger := s.irqTrigger || boardRaises id s.mapper m } := by
  have hline : (!mapperIrq s.board s.mapper && mapperIrq s.board m) = boardRaises id s.mapper m := by rw [hb]; rfl
  rw [setMapper_eq, hline]
  cases boardRaises id s.mapper m <;> rfl

/-- A bus write in the range of a custom board stores in cartridge RAM or switches banks (20_memory R53, R63). -/
theorem busWrite_custom (a : Addr) (v : Byte) (ha : 0x4020 ≤ a.toNat) :
    busWrite a v s =
      ({ s with cartRam := boardRamAfter id a v s.mapper s.cartRam } : State).setMapper
        (boardMapperAfter id a v s.mapper) := by
  have hclaims : mapperClaims s.board a = Config.boardClaims id a := by simp [hb, mapperClaims, ha]
  rw [busWrite_cart a v s ha]
  cases hc : Config.boardClaims id a with
  | true =>
    have hw : mapperOnWrite s.board a v s.mapper = boardMapperAfter id a v s.mapper := by
      simp [hb, mapperOnWrite, boardMapperAfter, hc]
    have hram : boardRamAfter id a v s.mapper s.cartRam = s.cartRam := if_pos (.inl hc)
    rw [hram, ← hw]
    exact if_pos (hclaims.trans hc)
  | false =>
    have hm : boardMapperAfter id a v s.mapper = s.mapper := by simp [boardMapperAfter, hc]
    rw [hm, State.setMapper_self { s with cartRam := boardRamAfter id a v s.mapper s.cartRam }]
    by_cases hhi : 0x8000 ≤ a.toNat
    · have hram : boardRamAfter id a v s.mapper s.cartRam = s.cartRam := if_pos (.inr hhi)
      rw [cartWrite_ignored a v s (hclaims.trans hc) hhi, hram]
    · have hram : boardRamAfter id a v s.mapper s.cartRam = storeAt (mapperResolve s.board a s.mapper) v s.cartRam := by
        simp [boardRamAfter, hc, hhi, hb, mapperResolve]
      rw [cartWrite_unclaimed a v s (hclaims.trans hc) (Nat.not_le.mp hhi), hram]

/-- A bus read in the range of a custom board: the byte of the location, then the board's read effect (20_memory R60). -/
theorem busRead_custom (a : Addr) (ha : 0x4020 ≤ a.toNat) :
    busRead a s =
      ((readLocation (Config.boardResolve id a s.mapper) s).1,
        (readLocation (Config.boardResolve id a s.mapper) s).2.setMapper (Config.boardOnRead id a s.mapper)) := by
  have hr : mapperResolve s.board a s.mapper = Config.boardResolve id a s.mapper := by rw [hb]; rfl
  have ho : mapperOnRead s.board a s.mapper = Config.boardOnRead id a s.mapper := by rw [hb]; rfl
  rw [busRead_cart a s ha, cartRead_eq, hr, ho]

end Custom

/-- Settles O17: a write is one store or one bank switch (`busWrite_custom`), a read is the byte of the location and the
board's read effect (`busRead_custom`), and a change of the board's state triggers where it raises the line
(`setMapper_custom`). -/
theorem boardWriteSwitchesBanks : Obligations.BoardWriteSwitchesBanks := by
  unfold Obligations.BoardWriteSwitchesBanks
  intro id a v s hb ha
  refine ⟨?write, ?byte, ?effect⟩
  case write =>
    -- The store of the write leaves the board, so `hb` is the stored state's board too.
    have hw := (busWrite_custom hb a v ha).trans (setMapper_custom (by exact hb) _)
    refine ⟨?other, ?banks, ?ram, ?events, ?trigger, ?frame, ?later⟩
    case later =>
      intro b hbt
      rw [busRead_custom (by rw [busWrite_board, hb]) b hbt, hw]
      cases Config.boardResolve id b (boardMapperAfter id a v s.mapper) <;> rfl
    all_goals rw [hw]
    case other => exact boardMapperAfter_other id a v s.mapper
    case banks => exact boardMapperAfter_banks id a v s.mapper
    case ram => rfl
    case events => simp only [boardRaises_boardMapperAfter]
    case trigger => simp only [Bool.or_eq_true, boardRaises_boardMapperAfter]
  case byte =>
    rw [busRead_custom hb a ha]
    cases Config.boardResolve id a s.mapper <;> rfl
  case effect =>
    rw [busRead_custom hb a ha]
    simp only [← boardRaises_iff]
    -- The draw of an unbacked read leaves the board.
    cases Config.boardResolve id a s.mapper <;> exact setMapper_custom (by exact hb) _

/-! ## Words of the opcode table -/

/-- Settles O3: the eight words decode by computation. -/
theorem specWordsDecode : Obligations.SpecWordsDecode := by
  unfold Obligations.SpecWordsDecode
  decide

end Sys2Proof.Machine

/-! # Family 30_encoding: decoder, encoder, addressing and the step

The encoder inverts the decoder because operand bytes and operand determine each other (`operandOf_bytes`,
`bytes_operandOf`). What holds of all opcode bytes is checked on the 16 by 16 opcode map (`forall_byte_of_nibbles`). An
instruction runs through `exec_phase` or `exec_branch`; the addressing statements say what these see. -/

namespace Sys2Proof.Machine

/-! ## Operand bytes -/

theorem operandBytes_length (o : Operand) : o.bytes.length + 1 = o.length := by cases o <;> rfl

/-- An operand that fits is the one its mode reads from its bytes (30_encoding R91). -/
theorem operandOf_bytes (o : Operand) (h : o.fits = true) :
    operandOf o.mode (o.bytes[0]?.getD 0) (o.bytes[1]?.getD 0) = o := by
  cases o with
  | abs w | absx w | absy w | ind w => exact congrArg _ (wordOf_hi_lo w)
  | rel d =>
    have hd : -128 ≤ d ∧ d ≤ 127 := of_decide_eq_true h
    have hi : (BitVec.ofInt 8 d).toInt = d := by
      rw [BitVec.toInt_ofInt]
      exact Int.bmod_eq_of_le (by omega) (by omega)
    exact congrArg _ hi
  | imp | acc | imm | zp | zpx | zpy | indx | indy => rfl

/-- The bytes of what a mode reads from as many operand bytes as it has (30_encoding R91). -/
theorem bytes_operandOf (m : Mode) (args : List Byte) (h : args.length + 1 = m.length) :
    (operandOf m (args[0]?.getD 0) (args[1]?.getD 0)).bytes = args := by
  cases m with
  | imp | acc => rw [List.length_eq_zero_iff.mp (Nat.succ.inj h)]; rfl
  | imm | zp | zpx | zpy | indx | indy =>
    obtain ⟨b, rfl⟩ := List.length_eq_one_iff.mp (Nat.succ.inj h)
    rfl
  | rel =>
    obtain ⟨b, rfl⟩ := List.length_eq_one_iff.mp (Nat.succ.inj h)
    exact congrArg (fun v => [v]) BitVec.ofInt_toInt
  | abs | absx | absy | ind =>
    obtain ⟨lo, hi, rfl⟩ := List.length_eq_two.mp (Nat.succ.inj h)
    simp [operandOf, Operand.bytes]

/-- What a mode reads from operand bytes fits (30_encoding R110). -/
theorem operandOf_fits (m : Mode) (b1 b2 : Byte) : (operandOf m b1 b2).fits = true := by
  cases m with
  | rel => exact decide_eq_true ⟨BitVec.le_toInt b1, Int.le_of_lt_add_one BitVec.toInt_lt⟩
  | _ => rfl

/-! ## The decoder, by the length of the list (30_encoding R90, R109) -/

/-- A mapped opcode byte with all its operand bytes. -/
theorem decode_of_args {op : Byte} {row : TableRow} (hr : tableRow op = some row) (args rest : List Byte)
    (h : args.length + 1 = row.mode.length) :
    decode (op :: (args ++ rest)) = decodedAs op (args[0]?.getD 0) (args[1]?.getD 0) rest := by
  have hlen : row.mode.length ≤ 3 := by cases row.mode <;> decide
  unfold decode
  simp only [hr, ← h]
  match args with
  | [] | [_] | [_, _] => rfl
  | _ :: _ :: _ :: _ => simp only [List.length_cons] at h; omega

/-- A mapped opcode byte with too few bytes after it. -/
theorem decode_of_short {op : Byte} {row : TableRow} (hr : tableRow op = some row) (bs : List Byte)
    (h : bs.length + 1 < row.mode.length) : decode (op :: bs) = .rejected (.truncated op) := by
  unfold decode
  simp only [hr]
  split
  · omega
  · simp only [List.length_cons] at h; omega
  · simp only [List.length_cons] at h; omega
  · rfl

/-- A mapped opcode byte stands before all its operand bytes, and then decodes, or before too few. -/
theorem decode_mapped {op : Byte} {row : TableRow} (hr : tableRow op = some row) (bs : List Byte) :
    (∃ args rest i, bs = args ++ rest ∧ args.length + 1 = row.mode.length ∧
        decodeOp op (args[0]?.getD 0) (args[1]?.getD 0) = some i ∧ decode (op :: bs) = .instr i rest) ∨
      decode (op :: bs) = .rejected (.truncated op) := by
  by_cases h : bs.length + 1 < row.mode.length
  · exact .inr (decode_of_short hr bs h)
  · have hpos : 0 < row.mode.length := by cases row.mode <;> decide
    obtain ⟨args, rest, rfl, hargs⟩ : ∃ args rest, bs = args ++ rest ∧ args.length + 1 = row.mode.length :=
      ⟨bs.take (row.mode.length - 1), bs.drop (row.mode.length - 1), (List.take_append_drop _ _).symm,
        by rw [List.length_take]; omega⟩
    have hne : decodeOp op (args[0]?.getD 0) (args[1]?.getD 0) ≠ none := by
      rw [Ne, decodeOp_none, hr]
      exact Option.some_ne_none row
    obtain ⟨i, hi⟩ := Option.ne_none_iff_exists'.mp hne
    exact .inl ⟨args, rest, i, rfl, hargs, hi, by rw [decode_of_args hr args rest hargs, decodedAs, hi]⟩

/-! ## The encoder inverts the decoder -/

/-- The opcode byte and operand bytes of a well-formed instruction stand for it. -/
theorem decodeOp_encode (i : Instr) (h : i.wellFormed = true) :
    decodeOp i.opcode (i.operand.bytes[0]?.getD 0) (i.operand.bytes[1]?.getD 0) = some i := by
  obtain ⟨base, penalty, hrow, hform⟩ := row_of_instr i
  simp only [decodeOp, hrow, operandOf_bytes i.operand h, hform]

/-- Settles O1: the list is the opcode byte and the operand bytes of `i` (`decode_of_args`), which stand for `i`
(`decodeOp_encode`). -/
theorem decodeOfEncode : Obligations.DecodeOfEncode := by
  unfold Obligations.DecodeOfEncode
  intro i rest hi
  obtain ⟨base, penalty, hrow, -⟩ := row_of_instr i
  have hdec := decode_of_args hrow i.operand.bytes rest (operandBytes_length i.operand)
  rwa [decodedAs, decodeOp_encode i hi] at hdec

/-- Settles O2: the list is a mapped opcode byte and its operand bytes (`decode_mapped`); the instruction has that opcode
byte, and its operand is what the mode reads from those bytes (`decodeOp_some`). -/
theorem encodeOfDecode : Obligations.EncodeOfDecode := by
  unfold Obligations.EncodeOfDecode
  intro bytes i rest hdec
  match bytes with
  | [] => cases hdec
  | op :: bs =>
    cases hr : tableRow op with
    | none => simp [decode, hr] at hdec
    | some row =>
      rcases decode_mapped hr bs with ⟨args, rest', i', rfl, hargs, hop, hinstr⟩ | hshort
      · rw [hinstr, Decoded.instr.injEq] at hdec
        obtain ⟨rfl, rfl⟩ := hdec
        obtain ⟨rfl, row', hr', hoperand⟩ := decodeOp_some _ _ _ _ hop
        obtain rfl : row = row' := Option.some.inj (hr.symm.trans hr')
        refine ⟨?wf, ?bytes⟩
        case wf => rw [Instr.wellFormed, hoperand, operandOf_fits]
        case bytes => rw [encode, hoperand, bytes_operandOf row.mode args hargs, List.cons_append]
      · rw [hshort] at hdec
        cases hdec

/-! ## Facts checked on the whole opcode map (30_encoding R103, R105, R106) -/

/-- A property of bytes holds of all of them when it holds at every row and column of the opcode map. -/
theorem forall_byte_of_nibbles {P : Byte → Prop} (h : ∀ q r : Fin 16, P (BitVec.ofNat 8 (q.val * 16 + r.val)))
    (b : Byte) : P b := by
  have hb := b.isLt
  have key := h ⟨b.toNat / 16, by omega⟩ ⟨b.toNat % 16, by omega⟩
  simpa only [Nat.div_add_mod', BitVec.ofNat_toNat, BitVec.setWidth_eq] using key

theorem tableRow_none_iff (op : Byte) : tableRow op = none ↔ op ∈ unmappedBytes :=
  forall_byte_of_nibbles (P := fun op => tableRow op = none ↔ op ∈ unmappedBytes) (by decide) op

/-- The page-cross penalty of a row is the one of 30_encoding R103: nine read-class operations, in three modes. -/
def PenaltyAsListed (row : TableRow) : Prop :=
  row.penalty = true ↔
    row.op ∈ [Op.adc, Op.and, Op.cmp, Op.eor, Op.lda, Op.ldx, Op.ldy, Op.ora, Op.sbc] ∧
      row.mode ∈ [Mode.absx, Mode.absy, Mode.indy]

theorem tableRow_penalty {op : Byte} {row : TableRow} (h : tableRow op = some row) : PenaltyAsListed row :=
  forall_byte_of_nibbles (P := fun op => ∀ row ∈ tableRow op, PenaltyAsListed row)
    (by unfold PenaltyAsListed; decide) op row h

/-- Settles O4: a byte without a row is rejected as unmapped, a byte with a row never is (`decode_mapped`), and the bytes
without a row are the listed ones. -/
theorem unmappedBytesAreRejected : Obligations.UnmappedBytesAreRejected := by
  unfold Obligations.UnmappedBytesAreRejected
  intro op rest
  rw [← tableRow_none_iff]
  cases hr : tableRow op with
  | none => simp [decode, hr]
  | some row =>
    simp only [reduceCtorEq, iff_false]
    rcases decode_mapped hr rest with ⟨args, rest', i, -, -, -, hinstr⟩ | hshort
    · rw [hinstr]
      exact Decoded.noConfusion
    · simp [hshort]

/-! ## Every instruction completes (30_encoding R101 to R103) -/

/-- A branch completes. -/
theorem runBranch_next (d : Int) (cond : Byte → Bool) (s : State) : ∃ t, runBranch d cond s = .next t := by
  unfold runBranch
  dsimp only
  split
  · exact ⟨_, rfl⟩
  · exact ⟨_, rfl⟩

/-- No execute phase moves the cycle counter: register changes and bus accesses leave it. -/
theorem phase_cycles (op : Op) (o : Operand) (ea : Option Addr) (s : State) : (phase op o ea s).cycles = s.cycles :=
  have hclosed : BusClosed fun t => t.cycles = s.cycles :=
    { regs := fun _ _ _ _ _ _ _ _ h => h
      note := fun _ _ h => h
      read := fun a t h => (busRead_cycles a t).trans h
      write := fun a v t h => (busWrite_cycles a v t).trans h }
  hclosed.phase op o ea s rfl

/-- Every instruction completes; one that is no branch charges the table's cycles. -/
theorem exec_next (i : Instr) (s : State) :
    ∃ t, exec i s = .next t ∧ (i.operand.mode ≠ .rel → Charges s t (tableCycles i s)) := by
  cases hc : branchCond i.op s.p with
  | none =>
    refine ⟨_, exec_phase i s hc, fun _ => ⟨rfl, ?_⟩⟩
    rw [State.charge_cycles, phase_cycles, addressedState, addressed_cycles]
  | some c =>
    obtain ⟨d, ho, he⟩ := exec_branch i s c hc
    obtain ⟨t, ht⟩ := runBranch_next d (fun _ => c) s
    exact ⟨t, he.trans ht, fun hrel => absurd (congrArg Operand.mode ho) hrel⟩

/-- Settles O8: the row is the one of `row_of_instr`, its penalty the listed one (`tableRow_penalty`), and the
instruction completes with the table's cycles (`exec_next`). -/
theorem everyInstructionCompletesWithTableCycles : Obligations.EveryInstructionCompletesWithTableCycles := by
  unfold Obligations.EveryInstructionCompletesWithTableCycles
  intro i s
  obtain ⟨base, penalty, hrow, -⟩ := row_of_instr i
  obtain ⟨t, hexec, hcharges⟩ := exec_next i s
  refine ⟨_, t, hrow, rfl, rfl, tableRow_penalty hrow, hexec, fun hrel => ?_⟩
  have hcycles : tableCycles i s =
      base + if penalty = true ∧ (addressed i.operand s).1.crossed = true then 1 else 0 := by
    simp only [tableCycles, hrow, Bool.and_eq_true]
  exact hcycles ▸ hcharges hrel

/-! ## The address phase (30_encoding R92 to R100) -/

theorem zeroPage_eq_setWidth (b : Byte) : zeroPage b = b.setWidth 16 := by
  have hb := b.isLt
  apply BitVec.eq_of_toNat_eq
  rw [zeroPage_toNat, BitVec.toNat_setWidth, Nat.mod_eq_of_lt (by omega)]

theorem hiByte_toNat (w : Addr) : (hiByte w).toNat = w.toNat / 256 := by
  have hw := w.isLt
  simp only [hiByte, BitVec.toNat_setWidth, BitVec.toNat_ushiftRight, Nat.shiftRight_eq_div_pow]
  omega

/-- An indexed absolute address wraps at 0xFFFF; it has crossed where the sum leaves the page of its base, a sum that
wraps too (30_encoding R96). -/
theorem indexed_eq (w : Addr) (i : Byte) :
    indexed w i =
      { addr := some (BitVec.ofNat 16 (w.toNat + i.toNat))
        crossed := decide ((w.toNat + i.toNat) / 256 ≠ w.toNat / 256) } := by
  have hw := w.isLt
  have hi := i.isLt
  have hea : w + i.setWidth 16 = BitVec.ofNat 16 (w.toNat + i.toNat) := by
    apply BitVec.eq_of_toNat_eq
    simp
  have hcross : hiByte (w + i.setWidth 16) ≠ hiByte w ↔ (w.toNat + i.toNat) / 256 ≠ w.toNat / 256 := by
    rw [hea, Ne, ← BitVec.toNat_inj, hiByte_toNat, hiByte_toNat, BitVec.toNat_ofNat]
    omega
  simp only [indexed, hcross]
  rw [hea]

/-- Settles O9: the zero-page sums are bytes (`zeroPage_eq_setWidth`), the absolute sums are those of `indexed_eq`; the
other modes are read off the address phase. -/
theorem addressingWithoutReads : Obligations.AddressingWithoutReads := by
  unfold Obligations.AddressingWithoutReads
  intro s b w
  refine ⟨rfl, rfl, ?imm, ?zp, ?zpx, ?zpy, rfl, ?absx, ?absy, rfl⟩
  case imm =>
    have himm : s.pc + 2 - 1 = s.pc + 1 := by bv_omega
    rw [← himm]
    rfl
  case zp | zpx | zpy =>
    rw [← zeroPage_eq_setWidth]
    rfl
  case absx => exact congrArg (·, s.setPc (s.pc + 3)) (indexed_eq w s.x)
  case absy => exact congrArg (·, s.setPc (s.pc + 3)) (indexed_eq w s.y)

/-- JMP (ind) reads its pointer by two bus reads in one page, low byte first (30_encoding R99). -/
theorem addressed_ind (w : Addr) (s s1 s2 : State) (lo hi : Byte) (hlo : busRead w (s.setPc (s.pc + 3)) = (lo, s1))
    (hhi : busRead (wordOf (hiByte w) (loByte w + 1)) s1 = (hi, s2)) :
    addressed (.ind w) s = ({ addr := some (wordOf hi lo), crossed := false }, s2) := by
  have hadv : s.advance (.ind w) = s.setPc (s.pc + 3) := rfl
  simp only [addressed, hadv, resolve, jumpPointer, hlo, hhi]

/-- Settles O10: the zero-page pointers are two bytes of RAM (`zeroPagePointer_eq`); the JMP pointer is two bus reads
(`addressed_ind`), which where memory backs them give its bytes and change nothing (`busRead_cell`). -/
theorem addressingThroughPointers : Obligations.AddressingThroughPointers := by
  unfold Obligations.AddressingThroughPointers
  intro s b w
  refine ⟨?indx, ?indy, ?reads, ?cells⟩
  case indx =>
    simp only [addressed, resolve, zeroPagePointer_eq]
    rfl
  case indy =>
    simp only [addressed, resolve, zeroPagePointer_eq, indexed, hiByte_wordOf]
    rfl
  case reads => exact fun lo hi s1 s2 => addressed_ind w s s1 s2 lo hi
  case cells =>
    intro cl ch hcl hch
    have hread (a : Addr) (c : Cell) (h : s.readCell a = some c) :
        busRead a (s.setPc (s.pc + 3)) = (s.cellByte c, s.setPc (s.pc + 3)) := by
      have hcell : (s.setPc (s.pc + 3)).readCell a = some c := (State.readCell_congr a rfl).trans h
      have hbyte : (s.setPc (s.pc + 3)).cellByte c = s.cellByte c := State.cellByte_congr rfl rfl rfl c
      rw [busRead_cell a _ c hcell, hbyte]
    exact addressed_ind w s _ _ _ _ (hread w cl hcl) (hread _ ch hch)

/-! ## The operand (30_encoding R93, R101) -/

/-- A data access notes itself where it is the first watched one (60_exceptions R315). -/
theorem noteAccess_eq (s : State) (a : Addr) (k : Access) :
    s.noteAccess a k =
      { s with watchHit := if s.watchHit = none ∧ a.toNat ∈ s.watchSet k then some (a, k) else s.watchHit } := by
  unfold State.noteAccess
  split <;> rfl

/-- A data read is the bus read and the note of it: the bus does not see the note (`busRead_reframe`). -/
theorem dataRead_eq (a : Addr) (s : State) :
    dataRead a s = ((busRead a s).1, { (busRead a s).2 with watchHit := (s.noteAccess a .read).watchHit }) := by
  have hnote : s.noteAccess a .read = s.reframe (s.noteAccess a .read) := by rw [noteAccess_eq]; rfl
  rw [dataRead, hnote, busRead_reframe, ← hnote, noteAccess_eq, busRead_sameButDevices a s]
  rfl

/-- An operand with an effective address that is no immediate is a data read there. -/
theorem loadOperand_addressed (o : Operand) (s : State) (a : Addr) (ha : (addressed o s).1.addr = some a)
    (himm : o.mode ≠ .imm) (t : State) : loadOperand o (some a) t = dataRead a t := by
  cases o with
  | imm v => exact absurd rfl himm
  | acc => cases ha
  | imp | zp | zpx | zpy | abs | absx | absy | indx | indy | ind | rel => rfl

/-- Settles O11: an immediate and A need no address; every other operand is one data read (`loadOperand_addressed`,
`dataRead_eq`), which where memory backs it is that byte (`busRead_cell`), and the address phase changes no memory. -/
theorem operandIsOneRead : Obligations.OperandIsOneRead := by
  unfold Obligations.OperandIsOneRead
  intro i s
  refine ⟨?imm, ?acc, ?read⟩
  case imm =>
    intro v ho
    simp only [operandValue, operandState, addressedState, ho]
    exact ⟨rfl, rfl⟩
  case acc =>
    intro ho
    simp only [operandValue, operandState, addressedState, ho]
    exact ⟨rfl, rfl⟩
  case read =>
    intro a ha himm
    have hload : loadOperand i.operand (effAddr i s) (addressedState i s) = dataRead a (addressedState i s) := by
      rw [ha, loadOperand_addressed i.operand s a ha himm]
    have hvalue : operandValue i s = (busRead a (addressedState i s)).1 := by
      rw [operandValue, hload, dataRead_eq]
    refine ⟨hvalue, ?state, ?cell⟩
    case state =>
      rw [operandState, hload, dataRead_eq]
      simp only [noteAccess_eq, State.watchSet, addressedState, addressed_watchHit, addressed_readWatch]
    case cell =>
      intro c hc
      have hmem : KeepsMemory s (addressedState i s) :=
        State.cellByte_congr (addressed_ram _ s) (addressed_cartRam _ s) (addressed_prgRom _ s)
      rw [hvalue, busRead_cell a _ c hc]
      exact ⟨hmem c, rfl⟩

/-! ## The step (30_encoding R101) -/

/-- With an empty script and `paused` false the step is `step()` (log entry 8). -/
theorem step_of_ready {s : State} (hscript : s.script = []) (hpaused : s.paused = false) : step s = cpuStep s := by
  simp only [step, nextMove, hscript, hostMove, hpaused, Bool.false_eq_true, if_false]

/-- A step that fetches an instruction is its meaning and the end of the step. -/
theorem cpuStep_of_fetch {s s1 t : State} {i : Instr} {e : LogEntry} (hf : fetch s = (.instr i e, s1))
    (hx : exec i s1 = .next t) : cpuStep s = .next (t.finish e) := by
  simp only [cpuStep, hf, hx]

/-- The log entry of a fetched instruction is its own at the PC of the fetch. -/
theorem fetch_entry {s s1 : State} {i : Instr} {e : LogEntry} (hf : fetch s = (.instr i e, s1)) :
    e = logEntryOf i s.pc := by
  rcases fetch_outcomes s with ⟨-, h⟩ | ⟨j, s2, -, h, -⟩
  · cases hf.symm.trans h
  · cases hf.symm.trans h
    rfl

/-- Bytes that stand in memory are what the bus reads there, and reading them changes nothing. -/
theorem holdsBytes_busRead {s : State} {bytes : List Byte} {a : Addr} (h : s.holdsBytes a bytes) {k : Nat} {b : Byte}
    (hk : bytes[k]? = some b) : busRead (a + BitVec.ofNat 16 k) s = (b, s) := by
  induction bytes generalizing a k with
  | nil => cases hk
  | cons b0 rest ih =>
    obtain ⟨⟨c, hc, hb⟩, hrest⟩ := h
    cases k with
    | zero =>
      cases hk
      have h0 : a + BitVec.ofNat 16 0 = a := BitVec.add_zero a
      rw [h0, busRead_cell a s c hc, hb]
    | succ k =>
      have hsucc : a + BitVec.ofNat 16 (k + 1) = a + 1 + BitVec.ofNat 16 k := by
        rw [BitVec.add_assoc, BitVec.add_comm 1, BitVec.ofNat_add]
        rfl
      rw [hsucc]
      exact ih hrest hk

/-- The operand fetch of an instruction whose bytes stand in memory reads the operand byte where there is one. -/
theorem fetchOperand_of_holdsBytes {s : State} {i : Instr} {rest : List Byte}
    (h : s.holdsBytes s.pc (encode i ++ rest)) (k : Nat) :
    fetchOperand s.pc (k + 1) i.operand.mode.length s = (i.operand.bytes[k]?, s) := by
  have hlen : i.operand.bytes.length + 1 = i.operand.mode.length := operandBytes_length i.operand
  unfold fetchOperand
  cases hb : i.operand.bytes[k]? with
  | none =>
    have hk := List.getElem?_eq_none_iff.mp hb
    rw [if_neg (by omega)]
  | some b =>
    obtain ⟨hk, -⟩ := List.getElem?_eq_some_iff.mp hb
    have hread : (encode i ++ rest)[k + 1]? = some b := (List.getElem?_append_left hk).trans hb
    rw [if_pos (by omega), holdsBytes_busRead h hread]

/-- A well-formed instruction whose bytes stand in memory at PC is what the fetch finds, and nothing changes. -/
theorem fetch_of_holdsBytes {s : State} {i : Instr} {rest : List Byte} (hi : i.wellFormed = true)
    (h : s.holdsBytes s.pc (encode i ++ rest)) : fetch s = (.instr i (logEntryOf i s.pc), s) := by
  obtain ⟨base, penalty, hrow, -⟩ := row_of_instr i
  have hop : busRead s.pc s = (i.opcode, s) := by
    have h0 := holdsBytes_busRead h (k := 0) (b := i.opcode) rfl
    rwa [BitVec.add_zero] at h0
  unfold fetch
  simp only [hop, hrow, fetchOperand_of_holdsBytes h 0, fetchOperand_of_holdsBytes h 1, decodeOp_encode i hi,
    logEntryOf]

/-- Settles O5: the fetch finds the instruction the bytes decode to (`encodeOfDecode`, `fetch_of_holdsBytes`), and a step
that fetches an instruction is its meaning and the end of the step (`cpuStep_of_fetch`). -/
theorem stepRunsDecodedInstruction : Obligations.StepRunsDecodedInstruction := by
  have hstep (s s1 : State) (i : Instr) (e : LogEntry) (hscript : s.script = []) (hpaused : s.paused = false)
      (hf : fetch s = (.instr i e, s1)) : ∃ t, exec i s1 = .next t ∧ step s = .next (t.finish e) := by
    obtain ⟨t, hx, -⟩ := exec_next i s1
    exact ⟨t, hx, (step_of_ready hscript hpaused).trans (cpuStep_of_fetch hf hx)⟩
  unfold Obligations.StepRunsDecodedInstruction
  refine ⟨?decoded, ?fetched⟩
  case decoded =>
    intro s bytes rest i hscript hpaused hbytes hdec
    obtain ⟨hi, rfl⟩ := encodeOfDecode bytes i rest hdec
    obtain ⟨t, hx, hs⟩ := hstep s s i _ hscript hpaused (fetch_of_holdsBytes hi hbytes)
    simp only [hx, hs]
  case fetched =>
    intro s s1 i e hscript hpaused hf
    obtain ⟨t, hx, hs⟩ := hstep s s1 i e hscript hpaused hf
    simp only [hx, hs]
    exact ⟨fetch_entry hf, trivial⟩

end Sys2Proof.Machine

/-! # Family 41_load_store_transfer: loads, stores, transfers, stack

The frames are said once for all instructions: what is the host's (`busClosed_keepsHost`), and what is left by register
changes alone (`registersOnly_charge`), after the one read of the operand (`readsOnly_charge`), and after the one write of
a store (`storesOnly_charge`). Each statement is then the instruction's execute phase (`exec_of_op`), read off field by
field. -/

namespace Sys2Proof.Machine

/-! ## What no instruction changes -/

theorem KeepsHost.refl (s : State) : KeepsHost s s := ⟨rfl, rfl, rfl, rfl, rfl, rfl, rfl, rfl, rfl, rfl, rfl, rfl⟩

theorem KeepsHost.trans {s t u : State} (h1 : KeepsHost s t) (h2 : KeepsHost t u) : KeepsHost s u := by
  obtain ⟨a1, a2, a3, a4, a5, a6, a7, a8, a9, a10, a11, a12⟩ := h1
  obtain ⟨b1, b2, b3, b4, b5, b6, b7, b8, b9, b10, b11, b12⟩ := h2
  exact ⟨b1.trans a1, b2.trans a2, b3.trans a3, b4.trans a4, b5.trans a5, b6.trans a6, b7.trans a7, b8.trans a8,
    b9.trans a9, b10.trans a10, b11.trans a11, b12.trans a12⟩

/-- What stores bytes and moves devices changes nothing of the host's. -/
theorem SameButStored.keepsHost {s t : State} (h : SameButStored s t) : KeepsHost s t := by
  unfold SameButStored at h
  rw [h]
  exact KeepsHost.refl s

/-- Keeping what is the host's is closed under everything an instruction is made of. -/
theorem busClosed_keepsHost (s : State) : BusClosed (KeepsHost s) where
  regs _ _ _ _ _ _ _ _ h := h
  note _ _ h := h
  read a t h := h.trans (busRead_sameButDevices a t).stored.keepsHost
  write a v t h := h.trans (busWrite_sameButStored a v t).keepsHost

theorem operandState_keepsHost (i : Instr) (s : State) : KeepsHost s (operandState i s) :=
  have hclosed := busClosed_keepsHost s
  hclosed.loadOperand _ _ _ (hclosed.addressed _ _ (KeepsHost.refl s))

/-! ## The execute phase of an operation -/

/-- An instruction runs the execute phase of its operation, a branch apart (30_encoding R101, R102). -/
theorem exec_of_op {i : Instr} {op : Op} (s : State) (h : i.op = op) (hb : branchCond op s.p = none) :
    exec i s = .next ((phase op i.operand (effAddr i s) (addressedState i s)).charge (tableCycles i s)) := by
  subst h
  exact exec_phase i s hb

/-- Register changes and the cycles: no access, no byte of memory, no device. -/
theorem registersOnly_charge (i : Instr) (s : State) (a x y sp p : Byte) :
    RegistersOnly i s
      ({ s.advance i.operand with a := a, x := x, y := y, sp := sp, p := p }.charge (tableCycles i s)) :=
  ⟨rfl, KeepsHost.refl s, State.cellByte_congr rfl rfl rfl, ⟨rfl, rfl, rfl, rfl, rfl⟩, rfl, rfl, rfl⟩

/-! ## Reading the operand (30_encoding R101) -/

@[simp] theorem operandState_a (i : Instr) (s : State) : (operandState i s).a = s.a := by
  simp [operandState, addressedState]
@[simp] theorem operandState_x (i : Instr) (s : State) : (operandState i s).x = s.x := by
  simp [operandState, addressedState]
@[simp] theorem operandState_y (i : Instr) (s : State) : (operandState i s).y = s.y := by
  simp [operandState, addressedState]
@[simp] theorem operandState_sp (i : Instr) (s : State) : (operandState i s).sp = s.sp := by
  simp [operandState, addressedState]
@[simp] theorem operandState_p (i : Instr) (s : State) : (operandState i s).p = s.p := by
  simp [operandState, addressedState]
@[simp] theorem operandState_pc (i : Instr) (s : State) : (operandState i s).pc = nextPc i s := by
  simp [operandState, addressedState, nextPc]
@[simp] theorem operandState_cycles (i : Instr) (s : State) : (operandState i s).cycles = s.cycles := by
  simp [operandState, addressedState]

/-- The read of the operand changes no byte of memory. -/
theorem operandState_keepsMemory (i : Instr) (s : State) : KeepsMemory s (operandState i s) :=
  State.cellByte_congr ((loadOperand_ram _ _ _).trans (addressed_ram _ s))
    ((loadOperand_cartRam _ _ _).trans (addressed_cartRam _ s)) ((loadOperand_prgRom _ _ _).trans (addressed_prgRom _ s))

/-- The read of the operand, changes of A, X, Y and P, and the cycles. -/
theorem readsOnly_charge (i : Instr) (s : State) (a x y p : Byte) :
    ReadsOnly i s ({ operandState i s with a := a, x := x, y := y, p := p }.charge (tableCycles i s)) :=
  ⟨operandState_sp i s, operandState_pc i s, operandState_keepsHost i s, operandState_keepsMemory i s,
    ⟨rfl, rfl, rfl, rfl, rfl⟩, rfl, rfl, congrArg (· + tableCycles i s) (operandState_cycles i s)⟩

/-! ## Loads (41_load_store_transfer R131 to R133) -/

/-- Settles O18: a load puts the operand in its register and runs `SetNZ` on it (`setNZ_flagsNZ`), and nothing follows
the read of the operand but these register changes (`readsOnly_charge`). -/
theorem loadsSetRegisterAndNZ : Obligations.LoadsSetRegisterAndNZ := by
  unfold Obligations.LoadsSetRegisterAndNZ
  intro i s
  have hflags : FlagsNZ s.p (setNZ (operandState i s).p (operandValue i s)) (operandValue i s) := by
    rw [operandState_p]
    exact setNZ_flagsNZ _ _
  refine ⟨fun h => ?lda, fun h => ?ldx, fun h => ?ldy⟩
  case lda =>
    exact ⟨_, exec_of_op s h rfl, rfl, operandState_x i s, operandState_y i s, hflags, readsOnly_charge i s _ _ _ _⟩
  case ldx =>
    exact ⟨_, exec_of_op s h rfl, rfl, operandState_a i s, operandState_y i s, hflags, readsOnly_charge i s _ _ _ _⟩
  case ldy =>
    exact ⟨_, exec_of_op s h rfl, rfl, operandState_a i s, operandState_x i s, hflags, readsOnly_charge i s _ _ _ _⟩

/-! ## Stores (41_load_store_transfer R134 to R136) -/

/-- Every mode but implied and accumulator has an effective address (30_encoding R92 to R100). -/
theorem effAddr_isSome {i : Instr} (s : State) (himp : i.operand.mode ≠ .imp) (hacc : i.operand.mode ≠ .acc) :
    ∃ a, effAddr i s = some a := by
  unfold effAddr
  generalize i.operand = o at himp hacc ⊢
  cases o with
  | imp => exact absurd rfl himp
  | acc => exact absurd rfl hacc
  | imm | zp | zpx | zpy | abs | absx | absy | indx | indy | ind | rel => exact ⟨_, rfl⟩

/-- The rows of the stores take an address, and none the pointer of JMP (30_encoding R104). -/
def StoreModes (row : TableRow) : Prop :=
  row.op ∈ [Op.sta, Op.stx, Op.sty] → row.mode ∉ [Mode.imp, Mode.acc, Mode.ind]

theorem tableRow_storeModes {op : Byte} {row : TableRow} (h : tableRow op = some row) : StoreModes row :=
  forall_byte_of_nibbles (P := fun op => ∀ row ∈ tableRow op, StoreModes row) (by unfold StoreModes; decide) op row h

/-- The address phase of a store gives an address and only moves PC. -/
theorem store_addressed {i : Instr} (s : State) (h : i.op ∈ [Op.sta, Op.stx, Op.sty]) :
    (∃ a, effAddr i s = some a) ∧ addressedState i s = s.advance i.operand := by
  obtain ⟨base, penalty, hrow, -⟩ := row_of_instr i
  have hmode : i.operand.mode ∉ [Mode.imp, Mode.acc, Mode.ind] := tableRow_storeModes hrow h
  simp only [List.mem_cons, List.not_mem_nil, or_false, not_or] at hmode
  obtain ⟨himp, hacc, hind⟩ := hmode
  exact ⟨effAddr_isSome s himp hacc, addressed_advance i.operand s hind⟩

/-- An operand with an effective address is stored by a data write there. -/
theorem storeOperand_addressed {o : Operand} {s : State} {a : Addr} (ha : (addressed o s).1.addr = some a) (v : Byte)
    (t : State) : storeOperand o (some a) v t = dataWrite a v t := by
  cases o with
  | acc => cases ha
  | imp | imm | zp | zpx | zpy | abs | absx | absy | indx | indy | ind | rel => rfl

/-- A data write after the PC advance is the bus write, the note of it and the PC: the bus sees neither
(`busWrite_reframe`). -/
theorem dataWrite_advance (a : Addr) (v : Byte) (s : State) (o : Operand) :
    dataWrite a v (s.advance o) =
      { busWrite a v s with pc := (s.advance o).pc, watchHit := (s.noteAccess a .write).watchHit } := by
  have hnote : (s.advance o).noteAccess a .write = s.reframe ((s.advance o).noteAccess a .write) := by
    rw [noteAccess_eq]
    rfl
  rw [dataWrite, hnote, busWrite_reframe, noteAccess_eq, noteAccess_eq, busWrite_sameButStored a v s]
  rfl

/-- A bus write that stores a byte of memory moves no device. -/
theorem busWrite_keepsDevices {a : Addr} {s : State} (h : s.writeCell a ≠ none) (v : Byte) :
    KeepsDevices s (busWrite a v s) := by
  unfold State.writeCell at h
  unfold busWrite
  cases hd : decodeAddr a with
  | ram off => exact ⟨rfl, rfl, rfl, rfl, rfl⟩
  | ppu reg => simp [hd] at h
  | apu idx => simp [hd] at h
  | cart =>
    simp only [hd] at h
    simp only [cartWrite]
    split at h
    · exact absurd rfl h
    · split at h
      · next hclaims hlow =>
        rw [if_neg hclaims, if_pos hlow]
        cases mapperResolve s.board a s.mapper <;> exact ⟨rfl, rfl, rfl, rfl, rfl⟩
      · exact absurd rfl h

/-- One bus write at the effective address, the PC advance and the cycles. -/
theorem storesOnly_charge {i : Instr} {s : State} {a : Addr} (ha : effAddr i s = some a) (v : Byte) :
    StoresOnly i v s
      ({ busWrite a v s with pc := nextPc i s, watchHit := (s.noteAccess a .write).watchHit }.charge
        (tableCycles i s)) := by
  have hcell : storeCell i s = s.writeCell a := by rw [storeCell, ha, Option.bind_some]
  unfold StoresOnly
  rw [hcell]
  exact ⟨busWrite_a a v s, busWrite_x a v s, busWrite_y a v s, busWrite_sp a v s, busWrite_p a v s, rfl,
    (busWrite_sameButStored a v s).keepsHost, fun c hc hs => busWrite_stores a v s c hs hc, busWrite_cellByte a v s,
    ⟨a, ha, ⟨rfl, rfl, rfl, rfl, rfl⟩, rfl⟩, fun h => busWrite_keepsDevices h v, rfl,
    congrArg (· + tableCycles i s) (busWrite_cycles a v s)⟩

/-- A store of the register value `v` is one bus write at the effective address. -/
theorem exec_store {i : Instr} {op : Op} {s : State} {v : Byte} (h : i.op = op) (hop : op ∈ [Op.sta, Op.stx, Op.sty])
    (hphase : phase op i.operand (effAddr i s) (addressedState i s) =
      storeOperand i.operand (effAddr i s) v (addressedState i s))
    (hb : branchCond op s.p = none) : ∃ t, exec i s = .next t ∧ StoresOnly i v s t := by
  obtain ⟨⟨a, ha⟩, hadv⟩ := store_addressed s (h ▸ hop)
  refine ⟨_, ?_, storesOnly_charge ha v⟩
  rw [exec_of_op s h hb, hphase, ha, storeOperand_addressed ha, hadv, dataWrite_advance]
  rfl

/-- Settles O19: each of the three runs `StoreOperand` on its register, which the address phase leaves
(`exec_store`). -/
theorem storesWriteRegister : Obligations.StoresWriteRegister := by
  unfold Obligations.StoresWriteRegister
  intro i s
  refine ⟨fun h => exec_store h (by decide) ?sta rfl, fun h => exec_store h (by decide) ?stx rfl,
    fun h => exec_store h (by decide) ?sty rfl⟩
  case sta => rw [← addressed_a i.operand s]; rfl
  case stx => rw [← addressed_x i.operand s]; rfl
  case sty => rw [← addressed_y i.operand s]; rfl

/-! ## Transfers (41_load_store_transfer R137 to R142) -/

/-- Settles O20: a transfer changes its register, and P by `SetNZ` but for TXS (`setNZ_flagsNZ`), and nothing else
(`registersOnly_charge`). -/
theorem transfersCopyRegister : Obligations.TransfersCopyRegister := by
  unfold Obligations.TransfersCopyRegister
  intro s
  refine ⟨?tax, ?tay, ?tsx, ?txa, ?txs, ?tya⟩
  case tax | tay | tsx | txa | tya =>
    exact ⟨_, exec_phase _ s rfl, rfl, rfl, rfl, rfl, setNZ_flagsNZ _ _, registersOnly_charge _ s _ _ _ _ _⟩
  case txs => exact ⟨_, exec_phase _ s rfl, rfl, rfl, rfl, rfl, rfl, registersOnly_charge _ s _ _ _ _ _⟩

/-! ## The stack (41_load_store_transfer R143 to R146) -/

/-- A pop reads the cell S points to once S is one more (10_state R21). -/
theorem pop_cell (s : State) : pop s = (s.cellByte (stackCell (s.sp + 1)), s.setSp (s.sp + 1)) := pop_eq s

theorem pullA_eq (s : State) :
    pullA s =
      { s with
        a := s.cellByte (stackCell (s.sp + 1))
        sp := s.sp + 1
        p := setNZ s.p (s.cellByte (stackCell (s.sp + 1))) } := by
  rw [pullA, pop_cell]
  rfl

theorem pullP_eq (s : State) :
    pullP s = { s with sp := s.sp + 1, p := s.cellByte (stackCell (s.sp + 1)) ||| 0x20#8 } := by
  rw [pullP, pop_cell]
  rfl

/-- A push leaves its byte in the cell S pointed to (10_state R21). -/
theorem push_stores (v : Byte) (s : State) (h : s.ram.wf = true) : (push v s).cellByte (stackCell s.sp) = v := by
  rw [push_eq]
  exact Memory.read_write_same _ _ _ h

/-- A push leaves every other byte of memory. -/
theorem push_keepsMemoryBut (v : Byte) (s : State) : KeepsMemoryBut (some (stackCell s.sp)) s (push v s) := by
  rw [push_eq]
  intro c hc
  cases c with
  | ram off =>
    have hne : off ≠ 0x0100 + s.sp.toNat := fun he => hc (congrArg (some ∘ Cell.ram) he.symm)
    exact Memory.read_write_other _ _ _ _ hne
  | cartRam off | prg off => rfl

/-- PHA and PHP: one push, PC past the one byte, three cycles. -/
theorem exec_push {i : Instr} {s : State} (v : Byte) (he : exec i s = .next ((push v (s.advance .imp)).charge 3)) :
    ∃ t, exec i s = .next t ∧ t.a = s.a ∧ t.x = s.x ∧ t.y = s.y ∧ t.p = s.p ∧ t.sp = s.sp - 1 ∧ t.pc = s.pc + 1 ∧
      KeepsHost s t ∧ KeepsDevices s t ∧ t.watchHit = s.watchHit ∧ Charges s t 3 ∧
      (s.ram.wf = true → t.cellByte (stackCell s.sp) = v) ∧ KeepsMemoryBut (some (stackCell s.sp)) s t := by
  have hstores (h : s.ram.wf = true) := push_stores v (s.advance .imp) h
  have hkeeps := push_keepsMemoryBut v (s.advance .imp)
  rw [push_eq] at he hstores hkeeps
  exact ⟨_, he, rfl, rfl, rfl, rfl, rfl, rfl, KeepsHost.refl s, ⟨rfl, rfl, rfl, rfl, rfl⟩, rfl, ⟨rfl, rfl⟩, hstores,
    hkeeps⟩

/-- Settles O21: a push is one stored byte of RAM (`push_stores`, `push_keepsMemoryBut`), a pull one byte read from the
stack and register changes (`pullA_eq`, `pullP_eq`). -/
theorem stackInstructions : Obligations.StackInstructions := by
  unfold Obligations.StackInstructions
  intro s
  refine ⟨exec_push s.a ?pha, exec_push (s.p ||| 0x30#8) ?php, ?pla, ?plp⟩
  case pha | php =>
    rw [exec_phase _ s rfl, tableCycles_of_row _ s 3 (by decide)]
    rfl
  case pla =>
    have he : exec .pla s = .next ((pullA (s.advance .imp)).charge (tableCycles .pla s)) := exec_phase .pla s rfl
    rw [pullA_eq] at he
    exact ⟨_, he, rfl, rfl, rfl, setNZ_flagsNZ _ _, rfl, registersOnly_charge .pla s _ _ _ _ _⟩
  case plp =>
    have he : exec .plp s = .next ((pullP (s.advance .imp)).charge (tableCycles .plp s)) := exec_phase .plp s rfl
    rw [pullP_eq] at he
    exact ⟨_, he, rfl, rfl, rfl, rfl, rfl, registersOnly_charge .plp s _ _ _ _ _⟩

end Sys2Proof.Machine

/-! # Family 42_logic_arith_compare: logic, arithmetic, compares

Every instruction of the family reads its operand and then changes A and P alone (`exec_setsAP`), so each statement is
what the flag computation gives (`addWithCarry_adderGives`, `compareFlags_flagsNZC`, `getFlag_bitFlags`).
ADC and SBC share the adder (`exec_adder`), SBC on the one's complement of its operand (`adder_sum_complement`). -/

namespace Sys2Proof.Machine

/-! ## The flag computations (42_logic_arith_compare R160, R164, R167) -/

/-- The adder meets its rule: P passes through C, V and `SetNZ` in this order, and none of them undoes another. -/
theorem addWithCarry_adderGives (a m p : Byte) : AdderGives a m p (addWithCarry a m p).2 (addWithCarry a m p).1 := by
  refine ⟨rfl, ?carry, ?overflow, ?negative, ?zero, ?others⟩
  case carry => simp [addWithCarry, getFlag_setNZ, getFlag_setFlag]
  case overflow => simp [addWithCarry, getFlag_setNZ]
  case negative => simp [addWithCarry, getFlag_setNZ]
  case zero => simp [addWithCarry, getFlag_setNZ]
  case others =>
    intro f hn hz hc hv
    simp [addWithCarry, getFlag_setNZ, getFlag_setFlag, hn, hz, hc, hv]

/-- On the one's complement of `m` the adder's raw sum is `a - m - (1 - c)`, one turn of the byte higher (R166). -/
theorem adder_sum_complement (a m : Byte) (c : Bool) :
    ((a.toNat + (255#8 - m).toNat + c.toNat : Nat) : Int) =
      (a.toNat : Int) - m.toNat - (1 - (c.toNat : Int)) + 256 := by
  have hm : (255#8 - m).toNat = 255 - m.toNat := by bv_omega
  have hlt := m.isLt
  omega

/-- A turn of the byte does not change the byte. -/
theorem ofInt_add_turn (d : Int) : BitVec.ofInt 8 (d + 256) = BitVec.ofInt 8 d :=
  BitVec.eq_of_toNat_eq (by simp [BitVec.toNat_ofInt])

/-- N and Z of `v`, and then C: the flags of a compare. -/
theorem FlagsNZ.setCarry {p q v : Byte} (h : FlagsNZ p q v) (c : Bool) : FlagsNZC p (setFlag q .c c) v c := by
  obtain ⟨hn, hz, hothers⟩ := h
  refine ⟨?_, ?_, getFlag_setFlag_same q .c c, fun f hfn hfz hfc => ?_⟩
  · simpa [getFlag_setFlag] using hn
  · simpa [getFlag_setFlag] using hz
  · simpa [getFlag_setFlag, hfc] using hothers f hfn hfz

/-- A compare meets its rule: the masked difference is `r - m`, and it is not negative where `m` is at most `r`. -/
theorem compareFlags_flagsNZC (r m p : Byte) :
    FlagsNZC p (compareFlags r m p) (r - m) (decide (m.toNat ≤ r.toNat)) := by
  have hdiff : BitVec.ofInt 8 ((r.toNat : Int) - m.toNat) = r - m := by
    apply BitVec.eq_of_toNat_eq
    simp only [BitVec.toNat_ofInt, BitVec.toNat_sub]
    omega
  have hcarry : decide (0 ≤ (r.toNat : Int) - m.toNat) = decide (m.toNat ≤ r.toNat) :=
    decide_eq_decide.mpr (by omega)
  have hflags : compareFlags r m p = setFlag (setNZ p (r - m)) .c (decide (m.toNat ≤ r.toNat)) := by
    rw [← hdiff, ← hcarry]
    rfl
  rw [hflags]
  exact (setNZ_flagsNZ p (r - m)).setCarry _

theorem getFlag_bitFlags (a m p : Byte) (f : Flag) :
    getFlag (bitFlags a m p) f =
      if f = .v then m.getLsbD 6 else if f = .n then m.getLsbD 7 else if f = .z then decide (a &&& m = 0)
      else getFlag p f := by
  simp only [bitFlags, getFlag_setFlag]

/-! ## The operand, then A and P -/

section
variable {i : Instr} {op : Op} {s : State} (h : i.op = op) (hb : branchCond op s.p = none)
include h hb

/-- An instruction whose execute phase reads the operand and then sets A and P. -/
theorem exec_setsAP {a p : Byte}
    (hphase : phase op i.operand (effAddr i s) (addressedState i s) = { operandState i s with a := a, p := p }) :
    ∃ t, exec i s = .next t ∧ t.a = a ∧ t.x = s.x ∧ t.y = s.y ∧ t.p = p ∧ ReadsOnly i s t := by
  refine ⟨_, exec_of_op s h hb, ?_⟩
  rw [hphase]
  exact ⟨rfl, operandState_x i s, operandState_y i s, rfl, readsOnly_charge i s _ _ _ _⟩

/-- An instruction that sets P alone. -/
theorem exec_setsP {p : Byte}
    (hphase : phase op i.operand (effAddr i s) (addressedState i s) = (operandState i s).setP p) :
    ∃ t, exec i s = .next t ∧ t.a = s.a ∧ t.x = s.x ∧ t.y = s.y ∧ t.p = p ∧ ReadsOnly i s t := by
  refine exec_setsAP h hb (hphase.trans ?_)
  rw [← operandState_a i s]
  rfl

/-- A logical instruction: A takes the result of `f`, N and Z follow it (R161 to R163). -/
theorem exec_logic (f : Byte → Byte → Byte)
    (hphase : phase op i.operand (effAddr i s) (addressedState i s) =
      logicBody f (operandValue i s) (operandState i s)) :
    ∃ t, exec i s = .next t ∧ t.a = f s.a (operandValue i s) ∧ t.x = s.x ∧ t.y = s.y ∧ FlagsNZ s.p t.p t.a ∧
      ReadsOnly i s t := by
  have hbody : logicBody f (operandValue i s) (operandState i s) =
      { operandState i s with a := f s.a (operandValue i s), p := setNZ s.p (f s.a (operandValue i s)) } := by
    rw [← operandState_a i s, ← operandState_p i s]
    rfl
  obtain ⟨t, he, ha, hx, hy, hp, hreads⟩ := exec_setsAP h hb (hphase.trans hbody)
  refine ⟨t, he, ha, hx, hy, ?_, hreads⟩
  rw [hp, ha]
  exact setNZ_flagsNZ _ _

/-- An instruction of the adder, on the byte `m` that it makes of its operand (R160). -/
theorem exec_adder (m : Byte)
    (hphase : phase op i.operand (effAddr i s) (addressedState i s) = adcBody m (operandState i s)) :
    ∃ t, exec i s = .next t ∧ AdderGives s.a m s.p t.p t.a ∧ t.x = s.x ∧ t.y = s.y ∧ ReadsOnly i s t := by
  have hbody : adcBody m (operandState i s) =
      { operandState i s with a := (addWithCarry s.a m s.p).1, p := (addWithCarry s.a m s.p).2 } := by
    rw [← operandState_a i s, ← operandState_p i s]
    rfl
  obtain ⟨t, he, ha, hx, hy, hp, hreads⟩ := exec_setsAP h hb (hphase.trans hbody)
  refine ⟨t, he, ?_, hx, hy, hreads⟩
  rw [hp, ha]
  exact addWithCarry_adderGives s.a m s.p

/-- A compare of the register `r`, which the read of the operand leaves (R167 to R169). -/
theorem exec_compare (r : State → Byte) (hr : r (operandState i s) = r s)
    (hphase : phase op i.operand (effAddr i s) (addressedState i s) =
      compareBody r (operandValue i s) (operandState i s)) :
    ∃ t, exec i s = .next t ∧ t.a = s.a ∧ t.x = s.x ∧ t.y = s.y ∧
      FlagsNZC s.p t.p (r s - operandValue i s) (decide ((operandValue i s).toNat ≤ (r s).toNat)) ∧
      ReadsOnly i s t := by
  rw [compareBody, hr, operandState_p] at hphase
  obtain ⟨t, he, ha, hx, hy, hp, hreads⟩ := exec_setsP h hb hphase
  refine ⟨t, he, ha, hx, hy, ?_, hreads⟩
  rw [hp]
  exact compareFlags_flagsNZC _ _ _

end

/-! ## Logic (42_logic_arith_compare R161 to R164) -/

/-- Settles O22: the three run the logical execute phase, each with its bitwise operation (`exec_logic`). -/
theorem logicalInstructions : Obligations.LogicalInstructions := by
  unfold Obligations.LogicalInstructions
  intro i s
  exact ⟨fun h => exec_logic h rfl (· &&& ·) rfl, fun h => exec_logic h rfl (· ||| ·) rfl,
    fun h => exec_logic h rfl (· ^^^ ·) rfl⟩

/-- Settles O23: BIT sets P alone (`exec_setsP`), flag by flag as `getFlag_bitFlags` says. -/
theorem bitTest : Obligations.BitTest := by
  unfold Obligations.BitTest
  intro i s h
  have hphase : phase .bit i.operand (effAddr i s) (addressedState i s) =
      (operandState i s).setP (bitFlags s.a (operandValue i s) s.p) := by
    rw [← operandState_a i s, ← operandState_p i s]
    rfl
  obtain ⟨t, he, ha, hx, hy, hp, hreads⟩ := exec_setsP h rfl hphase
  refine ⟨t, he, ha, hx, hy, ?zero, ?negative, ?overflow, ?others, hreads⟩
  case zero => simp [hp, getFlag_bitFlags]
  case negative => simp [hp, getFlag_bitFlags]
  case overflow => simp [hp, getFlag_bitFlags]
  case others =>
    intro f hz hn hv
    simp [hp, getFlag_bitFlags, hz, hn, hv]

/-! ## Arithmetic (42_logic_arith_compare R165, R166) -/

/-- Settles O24: ADC is the adder on the operand (`exec_adder`), which reads no flag but C. -/
theorem addWithCarryInstruction : Obligations.AddWithCarryInstruction := by
  unfold Obligations.AddWithCarryInstruction
  intro i s h
  exact exec_adder h rfl (operandValue i s) rfl

/-- Settles O25: SBC is the adder on the complement of the operand (`exec_adder`), whose raw sum is the difference with
borrow and 256 (`adder_sum_complement`). -/
theorem subtractWithBorrowInstruction : Obligations.SubtractWithBorrowInstruction := by
  unfold Obligations.SubtractWithBorrowInstruction
  intro i s h
  obtain ⟨t, he, hadder, hx, hy, hreads⟩ := exec_adder h rfl (255#8 - operandValue i s) rfl
  have ⟨hsum, hcarry, _⟩ := hadder
  have hcompl := adder_sum_complement s.a (operandValue i s) (getFlag s.p .c)
  refine ⟨t, he, hadder, ?difference, ?noBorrow, hx, hy, hreads⟩
  case difference => rw [hsum, ← BitVec.ofInt_natCast, hcompl, ofInt_add_turn]
  case noBorrow =>
    rw [hcarry]
    omega

/-! ## Compares (42_logic_arith_compare R167 to R169) -/

/-- Settles O26: the three run the compare's execute phase, each on its register (`exec_compare`). -/
theorem comparesSetFlags : Obligations.ComparesSetFlags := by
  unfold Obligations.ComparesSetFlags
  intro i s
  exact ⟨fun h => exec_compare h rfl State.a (operandState_a i s) rfl,
    fun h => exec_compare h rfl State.x (operandState_x i s) rfl,
    fun h => exec_compare h rfl State.y (operandState_y i s) rfl⟩

end Sys2Proof.Machine

/-! # Family 43_incdec_shift: increments, decrements, shifts, rotates

A read-modify-write instruction works on A or at an effective address (`modify_operand`). What it leaves is said once for
each of the two (`modifiesOnly_acc`, `modifiesOnly_memory`), and `exec_modify` joins them; the statements then say which
value and which P the instruction's function gives. -/

namespace Sys2Proof.Machine

/-! ## Read-modify-write (43_incdec_shift R180) -/

/-- The operations that read, modify and write their operand. -/
def modifyOps : List Op := [.inc, .dec, .asl, .lsr, .rol, .ror]

/-- The rows of these operations take an operand (30_encoding R104). -/
def ModifyModes (row : TableRow) : Prop := row.op ∈ modifyOps → row.mode ≠ .imp

theorem tableRow_modifyModes {op : Byte} {row : TableRow} (h : tableRow op = some row) : ModifyModes row :=
  forall_byte_of_nibbles (P := fun op => ∀ row ∈ tableRow op, ModifyModes row) (by unfold ModifyModes; decide) op row h

/-- A read-modify-write instruction works on A or at an effective address. -/
theorem modify_operand {i : Instr} (s : State) (h : i.op ∈ modifyOps) :
    i.operand = .acc ∨ ∃ a, effAddr i s = some a := by
  obtain ⟨base, penalty, hrow, -⟩ := row_of_instr i
  have himp : i.operand.mode ≠ .imp := tableRow_modifyModes hrow h
  by_cases hacc : i.operand.mode = .acc
  · refine .inl ?_
    generalize i.operand = o at hacc ⊢
    cases o with
    | acc => rfl
    | _ => cases hacc
  · exact .inr (effAddr_isSome s himp hacc)

theorem effAddr_of_acc {i : Instr} (s : State) (ho : i.operand = .acc) : effAddr i s = none := by
  rw [effAddr, ho]
  rfl

/-- The execute phase in terms of the operand's value and of the state after its read. -/
theorem modifyBody_operand (f : Byte → Byte → Byte × Byte) (i : Instr) (s : State) :
    modifyBody f i.operand (effAddr i s) (addressedState i s) =
      (storeOperand i.operand (effAddr i s) (f (operandValue i s) (operandState i s).p).1 (operandState i s)).setP
        (f (operandValue i s) (operandState i s).p).2 := rfl

theorem operandState_memoriesOk (i : Instr) (s : State) : (operandState i s).memoriesOk = s.memoriesOk :=
  (loadOperand_frame _ _ _).memoriesOk.trans (resolve_sameButDevices _ _).memoriesOk

/-- A data write is the bus write and the note of it: the bus does not see the note (`busWrite_reframe`). -/
theorem dataWrite_eq (a : Addr) (v : Byte) (s : State) :
    dataWrite a v s = { busWrite a v s with watchHit := (s.noteAccess a .write).watchHit } := by
  have hnote : s.noteAccess a .write = s.reframe (s.noteAccess a .write) := by rw [noteAccess_eq]; rfl
  rw [dataWrite, hnote, busWrite_reframe, ← hnote, noteAccess_eq, busWrite_sameButStored a v s]
  rfl

/-- Accumulator form: the new A, the new P and the cycles, with no access. -/
theorem modifiesOnly_acc {i : Instr} (s : State) (ho : i.operand = .acc) (v p : Byte) :
    ModifiesOnly i v s ({ operandState i s with a := v, p := p }.charge (tableCycles i s)) := by
  have hcell : modifyCell i s = none := by rw [modifyCell, effAddr_of_acc s ho, Option.bind_none]
  have hstate : operandState i s = s.advance i.operand := by rw [operandState, addressedState, ho]; rfl
  unfold ModifiesOnly
  rw [hcell, hstate, if_pos ho]
  exact ⟨rfl, rfl, rfl, rfl, rfl, KeepsHost.refl s, fun _ hc => absurd hc (Option.some_ne_none _).symm,
    fun c _ => State.cellByte_congr rfl rfl rfl c, fun _ => ⟨⟨rfl, rfl, rfl, rfl, rfl⟩, rfl⟩, fun hne => absurd ho hne,
    rfl, rfl⟩

/-- Memory form: after the read of the operand one bus write at the effective address, the new P and the cycles. -/
theorem modifiesOnly_memory {i : Instr} {s : State} {a : Addr} (ha : effAddr i s = some a) (v p : Byte) :
    ModifiesOnly i v s
      ({ busWrite a v (operandState i s) with
          p := p
          watchHit := ((operandState i s).noteAccess a .write).watchHit }.charge (tableCycles i s)) := by
  have hacc : i.operand ≠ .acc := fun ho => Option.some_ne_none a (ha.symm.trans (effAddr_of_acc s ho))
  have hcell : modifyCell i s = (operandState i s).writeCell a := by rw [modifyCell, ha, Option.bind_some]
  have hhost := (operandState_keepsHost i s).trans (busWrite_sameButStored a v (operandState i s)).keepsHost
  unfold ModifiesOnly
  rw [hcell, if_neg hacc]
  refine ⟨?acc, ?x, ?y, ?sp, ?pc, hhost, ?stored, ?kept, fun ho => absurd ho hacc,
    fun _ => ⟨a, ha, ⟨rfl, rfl, rfl, rfl, rfl⟩, rfl⟩, rfl, ?cycles⟩
  case acc => exact (busWrite_a _ _ _).trans (operandState_a i s)
  case x => exact (busWrite_x _ _ _).trans (operandState_x i s)
  case y => exact (busWrite_y _ _ _).trans (operandState_y i s)
  case sp => exact (busWrite_sp _ _ _).trans (operandState_sp i s)
  case pc => exact (busWrite_pc _ _ _).trans (operandState_pc i s)
  case stored => exact fun c hc hs => busWrite_stores a v _ c ((operandState_memoriesOk i s).trans hs) hc
  case kept => exact fun c hc => (busWrite_cellByte a v _ c hc).trans (operandState_keepsMemory i s c)
  case cycles => exact congrArg (· + tableCycles i s) ((busWrite_cycles _ _ _).trans (operandState_cycles i s))

/-- A shift meets its rule: C and then `SetNZ`, which leaves C. -/
theorem shifted_flagsNZC (v : Byte) (out : Bool) (p : Byte) : FlagsNZC p (shifted v out p).2 v out := by
  obtain ⟨hn, hz, hothers⟩ := setNZ_flagsNZ (setFlag p .c out) v
  refine ⟨hn, hz, ?carry, fun f hfn hfz hfc => ?others⟩
  case carry => exact (hothers .c (by decide) (by decide)).trans (getFlag_setFlag_same p .c out)
  case others =>
    refine (hothers f hfn hfz).trans ?_
    rw [getFlag_setFlag, if_neg hfc]

section
variable {i : Instr} {op : Op} {s : State} {f : Byte → Byte → Byte × Byte} (h : i.op = op) (hop : op ∈ modifyOps)
  (hb : branchCond op s.p = none)
  (hphase : phase op i.operand (effAddr i s) (addressedState i s) =
    modifyBody f i.operand (effAddr i s) (addressedState i s))
include h hop hb hphase

/-- A read-modify-write instruction gives its operand and P what its function makes of the operand and the old P. -/
theorem exec_modify {v p : Byte} (hf : f (operandValue i s) s.p = (v, p)) :
    ∃ t, exec i s = .next t ∧ ModifiesOnly i v s t ∧ t.p = p := by
  have hbody : modifyBody f i.operand (effAddr i s) (addressedState i s) =
      (storeOperand i.operand (effAddr i s) v (operandState i s)).setP p := by
    rw [modifyBody_operand, operandState_p, hf]
  have hexec := exec_of_op s h hb
  rw [hphase, hbody] at hexec
  refine ⟨_, hexec, ?_, rfl⟩
  rcases modify_operand s (h ▸ hop) with ho | ⟨a, ha⟩
  case inl =>
    have hstore : storeOperand i.operand (effAddr i s) v (operandState i s) = (operandState i s).setA v := by
      rw [ho]
      rfl
    rw [hstore]
    exact modifiesOnly_acc s ho v p
  case inr =>
    rw [ha, storeOperand_addressed ha, dataWrite_eq]
    exact modifiesOnly_memory ha v p

/-- INC and DEC: N and Z follow the new value (R181, R182). -/
theorem exec_count {v : Byte} (hf : f (operandValue i s) s.p = (v, setNZ s.p v)) :
    ∃ t, exec i s = .next t ∧ ModifiesOnly i v s t ∧ FlagsNZ s.p t.p v := by
  obtain ⟨t, he, hmodifies, hp⟩ := exec_modify h hop hb hphase hf
  exact ⟨t, he, hmodifies, hp ▸ setNZ_flagsNZ s.p v⟩

/-- A shift or rotate to `w`: C takes the bit shifted out, N and Z follow the new value (R187 to R190). -/
theorem exec_shift {v w : Byte} {out : Bool} (hf : f (operandValue i s) s.p = shifted w out s.p)
    (hv : v.toNat = w.toNat) :
    ∃ t, exec i s = .next t ∧ ModifiesOnly i v s t ∧ FlagsNZC s.p t.p v out := by
  obtain rfl : v = w := BitVec.eq_of_toNat_eq hv
  obtain ⟨t, he, hmodifies, hp⟩ := exec_modify h hop hb hphase hf
  exact ⟨t, he, hmodifies, hp ▸ shifted_flagsNZC v out s.p⟩

end

/-! ## Increments and decrements (43_incdec_shift R181 to R186) -/

/-- Settles O27: INC and DEC are read-modify-write instructions that run `SetNZ` on the new value (`exec_count`). -/
theorem incDecMemory : Obligations.IncDecMemory := by
  unfold Obligations.IncDecMemory
  intro i s
  exact ⟨fun h => exec_count h (by decide) rfl rfl rfl, fun h => exec_count h (by decide) rfl rfl rfl⟩

/-- Settles O28: each of the four changes its register, and P by `SetNZ` (`setNZ_flagsNZ`), and nothing else
(`registersOnly_charge`). -/
theorem incDecRegister : Obligations.IncDecRegister := by
  unfold Obligations.IncDecRegister
  intro s
  refine ⟨?inx, ?iny, ?dex, ?dey⟩
  case inx | iny | dex | dey =>
    exact ⟨_, exec_phase _ s rfl, rfl, rfl, rfl, rfl, setNZ_flagsNZ _ _, registersOnly_charge _ s _ _ _ _ _⟩

/-! ## Shifts and rotates (43_incdec_shift R187 to R190) -/

theorem shiftLeft_one_toNat (m : Byte) : (m <<< 1).toNat = 2 * m.toNat % 256 := by
  rw [BitVec.toNat_shiftLeft, Nat.shiftLeft_eq, pow_one, Nat.mul_comm]

theorem shiftRight_one_toNat (m : Byte) : (m >>> 1).toNat = m.toNat / 2 := by
  rw [BitVec.toNat_ushiftRight, Nat.shiftRight_eq_div_pow, pow_one]

/-- Setting a bit that is clear adds its weight. -/
theorem or_twoPow_of_clear (x : Byte) (k : Nat) (h : x.getLsbD k = false) :
    x ||| BitVec.twoPow 8 k = x + BitVec.twoPow 8 k := by
  have hdisjoint : x &&& BitVec.twoPow 8 k = 0#8 := by rw [BitVec.and_twoPow, h, if_neg Bool.false_ne_true]
  exact (BitVec.add_eq_or_of_and_eq_zero x _ hdisjoint).symm

/-- The carry enters bit 0, which the left shift has emptied (R189). -/
theorem rotateLeft_toNat (m : Byte) (c : Bool) :
    (m <<< 1 ||| if c then 0x01#8 else 0#8).toNat = (2 * m.toNat + c.toNat) % 256 := by
  cases c with
  | false => exact (congrArg BitVec.toNat BitVec.or_zero).trans (shiftLeft_one_toNat m)
  | true =>
    have hor : m <<< 1 ||| 0x01#8 = m <<< 1 + 0x01#8 := or_twoPow_of_clear _ 0 (by simp)
    rw [if_pos rfl, hor, BitVec.toNat_add, shiftLeft_one_toNat]
    exact Nat.mod_add_mod _ _ _

/-- The carry enters bit 7, which the right shift has emptied (R190). -/
theorem rotateRight_toNat (m : Byte) (c : Bool) :
    (m >>> 1 ||| if c then 0x80#8 else 0#8).toNat = m.toNat / 2 + 128 * c.toNat := by
  cases c with
  | false => exact (congrArg BitVec.toNat BitVec.or_zero).trans (shiftRight_one_toNat m)
  | true =>
    have hor : m >>> 1 ||| 0x80#8 = m >>> 1 + 0x80#8 := or_twoPow_of_clear _ 7 (by simp)
    have hm := m.isLt
    rw [if_pos rfl, hor, BitVec.toNat_add, shiftRight_one_toNat]
    exact Nat.mod_eq_of_lt (show m.toNat / 2 + 128 < 256 by omega)

/-- Settles O29: the four are read-modify-write instructions that shift out a bit into C and run `SetNZ` on the new value
(`exec_shift`), whose number is that of the shift or rotate; the rotates read the old C. -/
theorem shiftsAndRotates : Obligations.ShiftsAndRotates := by
  unfold Obligations.ShiftsAndRotates
  intro i s v
  refine ⟨fun h hv => ?asl, fun h hv => ?lsr, fun h hv => ?rol, fun h hv => ?ror⟩
  case asl => exact exec_shift h (by decide) rfl rfl rfl (hv.trans (shiftLeft_one_toNat _).symm)
  case lsr => exact exec_shift h (by decide) rfl rfl rfl (hv.trans (shiftRight_one_toNat _).symm)
  case rol => exact exec_shift h (by decide) rfl rfl rfl (hv.trans (rotateLeft_toNat _ _).symm)
  case ror => exact exec_shift h (by decide) rfl rfl rfl (hv.trans (rotateRight_toNat _ _).symm)

end Sys2Proof.Machine

/-! # Family 44_control_flow: branches, jumps, calls, returns, BRK, flag instructions

The stack's part is said once: the cells that a pushed word and an interrupt's frame take (`pushWord_stores`,
`pushFrame_stores`) and the words popped again (`popWord_cell`). Every interrupt entry, whether BRK's or the host's, is
`enterInterrupt_entersThrough`; that a return undoes an entry or a call (O37) then follows from what the two leave. -/

namespace Sys2Proof.Machine

/-! ## Branches (44_control_flow R200 to R208) -/

/-- The common branch rule: only PC and the cycles change (R200). -/
theorem runBranch_leaves (d : Int) (c : Bool) (s : State) :
    ∃ t, runBranch d (fun _ => c) s = .next t ∧ BranchLeaves d c s t := by
  cases c with
  | false =>
    exact ⟨_, rfl, rfl, rfl, rfl, rfl, rfl, rfl, KeepsHost.refl s, State.cellByte_congr rfl rfl rfl,
      ⟨rfl, rfl, rfl, rfl, rfl⟩, rfl, rfl, rfl⟩
  | true =>
    have hcycles : (2 + 1 + if hiByte (s.pc + 2) ≠ hiByte (branchTarget d s) then 1 else 0) =
        if hiByte (branchTarget d s) ≠ hiByte (s.pc + 2) then 4 else 3 := by
      rw [apply_ite (2 + 1 + ·)]
      exact if_congr ne_comm rfl rfl
    exact ⟨_, rfl, rfl, rfl, rfl, rfl, rfl, rfl, KeepsHost.refl s, State.cellByte_congr rfl rfl rfl,
      ⟨rfl, rfl, rfl, rfl, rfl⟩, rfl, congrArg HostResult.cycles hcycles, congrArg (s.cycles + ·) hcycles⟩

/-- A branch instruction is the common rule on its condition (R201 to R208). -/
theorem exec_branch_leaves {i : Instr} {d : Int} {s : State} {c : Bool} (ho : i.operand = .rel d)
    (hc : branchCond i.op s.p = some c) : ∃ t, exec i s = .next t ∧ BranchLeaves d c s t := by
  obtain ⟨d', ho', he⟩ := exec_branch i s c hc
  obtain rfl : d = d' := Operand.rel.inj (ho.symm.trans ho')
  rw [he]
  exact runBranch_leaves d c s

/-- Settles O30: each branch is the common rule (`runBranch_leaves`) on the condition that `branchCond` names. -/
theorem branchesTestOneFlag : Obligations.BranchesTestOneFlag := by
  unfold Obligations.BranchesTestOneFlag
  intro d s
  exact ⟨exec_branch_leaves rfl rfl, exec_branch_leaves rfl rfl, exec_branch_leaves rfl rfl,
    exec_branch_leaves rfl rfl, exec_branch_leaves rfl rfl, exec_branch_leaves rfl rfl,
    exec_branch_leaves rfl rfl, exec_branch_leaves rfl rfl⟩

/-! ## An execute phase and its row's cycles (30_encoding R101, R102) -/

/-- An instruction that is no branch and takes no page-cross penalty: its execute phase and its row's cycles. -/
theorem exec_of_row {i : Instr} {s : State} {n : Nat} (hb : branchCond i.op s.p = none)
    (hrow : (tableRow i.opcode).map (fun r => (r.base, r.penalty)) = some (n, false)) :
    exec i s = .next ((phase i.op i.operand (effAddr i s) (addressedState i s)).charge n) := by
  rw [exec_phase i s hb, tableCycles_of_row i s n hrow]

/-! ## Cells of the stack (10_state R21, 20_memory R57) -/

theorem stackCell_inj {p q : Byte} (h : stackCell p = stackCell q) : p = q :=
  BitVec.eq_of_toNat_eq (Nat.add_left_cancel (Cell.ram.inj h))

theorem push_ram_wf (v : Byte) (s : State) (h : s.ram.wf = true) : (push v s).ram.wf = true := by
  rw [push_eq]
  exact Memory.wf_write _ _ _ h

/-- A push leaves every other cell of the stack. -/
theorem push_stackCell_of_ne (v : Byte) (s : State) {q : Byte} (h : q ≠ s.sp) :
    (push v s).cellByte (stackCell q) = s.cellByte (stackCell q) :=
  push_keepsMemoryBut v s _ fun he => h (stackCell_inj (Option.some.inj he)).symm

theorem pushWord_sp (w : Addr) (s : State) : (pushWord w s).sp = s.sp - 2 :=
  show s.sp - 1 - 1 = s.sp - 2 by bv_omega

/-- A pushed word has its high byte in the cell S pointed to and its low byte in the cell below. -/
theorem pushWord_stores (w : Addr) (s : State) (h : s.ram.wf = true) :
    (pushWord w s).cellByte (stackCell s.sp) = hiByte w ∧ (pushWord w s).cellByte (stackCell (s.sp - 1)) = loByte w := by
  have hne : s.sp ≠ (push (hiByte w) s).sp := show s.sp ≠ s.sp - 1 by bv_omega
  exact ⟨(push_stackCell_of_ne _ _ hne).trans (push_stores _ s h), push_stores _ _ (push_ram_wf _ s h)⟩

/-- A pushed word leaves every byte of memory but its two. -/
theorem pushWord_cellByte (w : Addr) (s : State) {c : Cell} (h0 : c ≠ stackCell s.sp) (h1 : c ≠ stackCell (s.sp - 1)) :
    (pushWord w s).cellByte c = s.cellByte c :=
  (push_keepsMemoryBut _ _ c fun he => h1 (Option.some.inj he).symm).trans
    (push_keepsMemoryBut _ s c fun he => h0 (Option.some.inj he).symm)

/-- A word popped is in the two cells above S, low byte first. -/
theorem popWord_cell (s : State) :
    popWord s =
      (wordOf (s.cellByte (stackCell (s.sp + 2))) (s.cellByte (stackCell (s.sp + 1))), s.setSp (s.sp + 2)) := by
  have hsp : s.sp + 2 = s.sp + 1 + 1 := by bv_omega
  rw [hsp]
  exact popWord_eq s

/-! ## Jumps and calls (44_control_flow R209, R210) -/

/-- The rows of JMP take an address (30_encoding R104). -/
def JumpModes (row : TableRow) : Prop := row.op = .jmp → row.mode ≠ .imp ∧ row.mode ≠ .acc

theorem tableRow_jumpModes {op : Byte} {row : TableRow} (h : tableRow op = some row) : JumpModes row :=
  forall_byte_of_nibbles (P := fun op => ∀ row ∈ tableRow op, JumpModes row) (by unfold JumpModes; decide) op row h

theorem jump_effAddr {i : Instr} (s : State) (h : i.op = .jmp) : ∃ a, effAddr i s = some a := by
  obtain ⟨base, penalty, hrow, -⟩ := row_of_instr i
  obtain ⟨himp, hacc⟩ := tableRow_jumpModes hrow h
  exact effAddr_isSome s himp hacc

theorem addressedState_keepsHost (i : Instr) (s : State) : KeepsHost s (addressedState i s) :=
  (busClosed_keepsHost s).addressed _ _ (KeepsHost.refl s)

theorem addressedState_keepsMemory (i : Instr) (s : State) : KeepsMemory s (addressedState i s) :=
  State.cellByte_congr (addressed_ram _ s) (addressed_cartRam _ s) (addressed_prgRom _ s)

/-- Settles O31: after its address phase JMP is a PC write alone, and JSR one pushed word (`pushWord_stores`,
`pushWord_cellByte`) and a PC write. -/
theorem jumpsAndCalls : Obligations.JumpsAndCalls := by
  unfold Obligations.JumpsAndCalls
  intro w s
  refine ⟨fun i h => ?jmp, ?jsr⟩
  case jmp =>
    obtain ⟨a, ha⟩ := jump_effAddr s h
    have he := exec_of_op s h rfl
    rw [ha] at he
    exact ⟨_, a, he, ha, rfl, addressed_a _ s, addressed_x _ s, addressed_y _ s, addressed_sp _ s, addressed_p _ s,
      addressedState_keepsHost i s, addressedState_keepsMemory i s, ⟨rfl, rfl, rfl, rfl, rfl⟩, addressed_watchHit _ s,
      rfl, congrArg (· + tableCycles i s) (addressed_cycles _ s)⟩
  case jsr =>
    have hpc : s.pc + 3 - 1 = s.pc + 2 := by bv_omega
    have hsp : s.sp - 1 - 1 = s.sp - 2 := by bv_omega
    have he : exec (.jsr w) s = .next (((pushWord (s.pc + 3 - 1) (s.advance (.abs w))).setPc w).charge 6) :=
      exec_of_row rfl (by simp only [Instr.opcode]; decide)
    rw [hpc] at he
    have hstores (h : s.ram.wf = true) := pushWord_stores (s.pc + 2) (s.advance (.abs w)) h
    have hkeeps (c : Cell) := pushWord_cellByte (s.pc + 2) (s.advance (.abs w)) (c := c)
    rw [pushWord_eq] at he hstores
    simp only [pushWord_eq] at hkeeps
    exact ⟨_, he, rfl, rfl, rfl, rfl, hsp, rfl, KeepsHost.refl s, ⟨rfl, rfl, rfl, rfl, rfl⟩, rfl, ⟨rfl, rfl⟩, hstores,
      hkeeps⟩

/-! ## Returns (44_control_flow R211, R212) -/

theorem rtsBody_eq (s : State) :
    rtsBody s =
      { s with
        sp := s.sp + 2
        pc := wordOf (s.cellByte (stackCell (s.sp + 2))) (s.cellByte (stackCell (s.sp + 1))) + 1 } := by
  rw [rtsBody, popWord_cell]
  rfl

theorem returnFromInterrupt_eq (s : State) :
    returnFromInterrupt s =
      { s with
        p := s.cellByte (stackCell (s.sp + 1)) ||| 0x20#8
        sp := s.sp + 3
        pc := wordOf (s.cellByte (stackCell (s.sp + 3))) (s.cellByte (stackCell (s.sp + 2))) } := by
  have h2 : s.sp + 1 + 1 = s.sp + 2 := by bv_omega
  have h3 : s.sp + 1 + 2 = s.sp + 3 := by bv_omega
  rw [← h2, ← h3, returnFromInterrupt, pop_cell]
  dsimp only
  rw [popWord_cell]
  rfl

/-- Settles O32: a return pops its bytes from the cells above S and changes registers alone (`rtsBody_eq`,
`returnFromInterrupt_eq`). -/
theorem returns : Obligations.Returns := by
  unfold Obligations.Returns
  intro s
  refine ⟨?rts, ?rti⟩
  case rts =>
    have he : exec .rts s = .next ((rtsBody (s.advance .imp)).charge 6) := exec_of_row rfl (by decide)
    rw [rtsBody_eq] at he
    exact ⟨_, he, rfl, rfl, rfl, rfl, rfl, rfl, KeepsHost.refl s, State.cellByte_congr rfl rfl rfl,
      ⟨rfl, rfl, rfl, rfl, rfl⟩, rfl, rfl, rfl⟩
  case rti =>
    have he : exec .rti s = .next ((returnFromInterrupt (s.advance .imp)).charge 6) := exec_of_row rfl (by decide)
    rw [returnFromInterrupt_eq] at he
    exact ⟨_, he, rfl, rfl, rfl, rfl, rfl, rfl, KeepsHost.refl s, State.cellByte_congr rfl rfl rfl,
      ⟨rfl, rfl, rfl, rfl, rfl⟩, rfl, rfl, rfl⟩

/-! ## Interrupt entry (44_control_flow R213, 60_exceptions R303 to R305) -/

/-- The frame of an interrupt is in the three cells down from S: PC high, PC low, status. -/
theorem pushFrame_stores (ret : Addr) (status : Byte) (s : State) (h : s.ram.wf = true) :
    (push status (pushWord ret s)).cellByte (stackCell s.sp) = hiByte ret ∧
      (push status (pushWord ret s)).cellByte (stackCell (s.sp - 1)) = loByte ret ∧
      (push status (pushWord ret s)).cellByte (stackCell (s.sp - 2)) = status := by
  have hwf : (pushWord ret s).ram.wf = true := push_ram_wf _ _ (push_ram_wf _ s h)
  have h0 : s.sp ≠ (pushWord ret s).sp := by rw [pushWord_sp]; bv_omega
  have h1 : s.sp - 1 ≠ (pushWord ret s).sp := by rw [pushWord_sp]; bv_omega
  obtain ⟨hhi, hlo⟩ := pushWord_stores ret s h
  refine ⟨(push_stackCell_of_ne _ _ h0).trans hhi, (push_stackCell_of_ne _ _ h1).trans hlo, ?_⟩
  rw [← pushWord_sp ret]
  exact push_stores status _ hwf

/-- The frame of an interrupt leaves every byte of memory but its three. -/
theorem pushFrame_cellByte (ret : Addr) (status : Byte) (s : State) {c : Cell} (h0 : c ≠ stackCell s.sp)
    (h1 : c ≠ stackCell (s.sp - 1)) (h2 : c ≠ stackCell (s.sp - 2)) :
    (push status (pushWord ret s)).cellByte c = s.cellByte c := by
  rw [← pushWord_sp ret] at h2
  exact (push_keepsMemoryBut status _ c fun he => h2 (Option.some.inj he).symm).trans (pushWord_cellByte ret s h0 h1)

/-- An interrupt entry after a change of PC: the bus does not see PC, and the entry loads it anew. So BRK, which enters
with PC advanced, enters as the host's interrupts do. -/
theorem enterInterrupt_setPc (vec ret w : Addr) (status : Byte) (s : State) :
    enterInterrupt vec ret status (s.setPc w) = enterInterrupt vec ret status s := by
  have hpush : (push status (pushWord ret (s.setPc w))).setFlag .i true =
      ((push status (pushWord ret s)).setFlag .i true).setPc w := by
    simp only [pushWord_eq, push_eq]
    rfl
  generalize hu : (push status (pushWord ret s)).setFlag .i true = u at hpush
  have hr : busRead16 vec (u.setPc w) = ((busRead16 vec u).1, (busRead16 vec u).2.reframe (u.setPc w)) :=
    busRead16_reframe vec u (u.setPc w)
  rw [enterInterrupt_eq, enterInterrupt_eq, hpush, hu, hr, busRead16_sameButDevices vec u]
  rfl

/-- What an interrupt entry leaves, field by field: the frame is pushed, the vector read, I set. -/
theorem enterInterrupt_fields (vec ret : Addr) (status : Byte) (s : State) :
    enterInterrupt vec ret status s =
      { (busRead16 vec (push status (pushWord ret s))).2 with
        p := setFlag s.p .i true
        pc := (busRead16 vec (push status (pushWord ret s))).1 } := by
  have hp : (push status (pushWord ret s)).p = s.p := by simp only [pushWord_eq, push_eq]
  generalize hu : push status (pushWord ret s) = u at hp
  have hr : busRead16 vec (u.setFlag .i true) =
      ((busRead16 vec u).1, (busRead16 vec u).2.reframe (u.setFlag .i true)) :=
    busRead16_reframe vec u (u.setFlag .i true)
  rw [enterInterrupt_eq, hu, hr, busRead16_sameButDevices vec u, ← hp]
  rfl

/-- Every interrupt entry leaves what 60_exceptions R305 says. -/
theorem enterInterrupt_entersThrough (vec ret : Addr) (status : Byte) (s : State) :
    EntersThrough vec ret status s (enterInterrupt vec ret status s) := by
  have hmem : KeepsMemory (push status (pushWord ret s)) (enterInterrupt vec ret status s) := by
    rw [enterInterrupt_fields, busRead16_sameButDevices vec]
    exact State.cellByte_congr rfl rfl rfl
  have hstores (h : s.ram.wf = true) := pushFrame_stores ret status s h
  simp only [← hmem _] at hstores
  refine ⟨?a, ?x, ?y, ?sp, fun f => ?flags, ?pc, ?devices, hstores,
    fun c h0 h1 h2 => (hmem c).trans (pushFrame_cellByte ret status s h0 h1 h2)⟩
  case a | x | y => simp [enterInterrupt_eq, busRead16, pushWord, push]
  case sp =>
    have hsp : s.sp - 1 - 1 - 1 = s.sp - 3 := by bv_omega
    simpa [enterInterrupt_eq, busRead16, pushWord, push] using hsp
  case flags =>
    rw [enterInterrupt_fields]
    exact getFlag_setFlag s.p .i f true
  case pc => rw [enterInterrupt_fields]
  case devices =>
    rw [enterInterrupt_fields]
    exact ⟨rfl, rfl, rfl, rfl, rfl⟩

/-- What is counted and returned after an entry is no part of it. -/
theorem entersThrough_freeOfResult (vec ret : Addr) (status : Byte) (s : State) :
    FreeOfResult (EntersThrough vec ret status s) := fun _ _ _ h => h

/-- BRK is an interrupt entry from the state before it, with PC + 2 to return to, and seven cycles. -/
theorem exec_brk (s : State) :
    exec .brk s = .next ((enterInterrupt Config.vecIrq (s.pc + 2) (pushedWithBreak s.p) s).charge 7) := by
  have hret : s.pc + 1 + 1 = s.pc + 2 := by bv_omega
  rw [← hret, ← enterInterrupt_setPc _ _ (s.pc + 1)]
  exact exec_of_row rfl (by decide)

/-- Settles O33: BRK is the shared interrupt entry (`exec_brk`, `enterInterrupt_entersThrough`), which reads no flag. -/
theorem breakEntersIrqVector : Obligations.BreakEntersIrqVector := by
  unfold Obligations.BreakEntersIrqVector
  intro s
  have hhost : KeepsHost s (enterInterrupt Config.vecIrq (s.pc + 2) (pushedWithBreak s.p) s) :=
    (busClosed_keepsHost s).enterInterrupt _ _ _ s (KeepsHost.refl s)
  refine ⟨_, exec_brk s, entersThrough_freeOfResult _ _ _ s _ _ _ (enterInterrupt_entersThrough _ _ _ s), hhost,
    ?watch, rfl, ?cycles⟩
  case watch | cycles => simp [enterInterrupt_eq, busRead16, pushWord, push]

/-! ## NOP and the flag instructions (44_control_flow R214, 45_flag_ops R230 to R236) -/

/-- The operations that set at most one flag and do nothing else. -/
def flagOps : List Op := [.nop, .clc, .sec, .cli, .sei, .cld, .sed, .clv]

/-- The rows of these operations are implied ones of two cycles (30_encoding R104). -/
def FlagRow (row : TableRow) : Prop := row.op ∈ flagOps → row.mode = .imp ∧ row.base = 2 ∧ row.penalty = false

theorem tableRow_flagRow {op : Byte} {row : TableRow} (h : tableRow op = some row) : FlagRow row :=
  forall_byte_of_nibbles (P := fun op => ∀ row ∈ tableRow op, FlagRow row) (by unfold FlagRow; decide) op row h

theorem flagOp_operand {i : Instr} (s : State) (h : i.op ∈ flagOps) : i.operand = .imp ∧ tableCycles i s = 2 := by
  obtain ⟨base, penalty, hrow, -⟩ := row_of_instr i
  obtain ⟨hmode, hbase, hpenalty⟩ := tableRow_flagRow hrow h
  refine ⟨?_, tableCycles_of_row i s 2 ?_⟩
  · generalize i.operand = o at hmode ⊢
    cases o with
    | imp => rfl
    | _ => cases hmode
  · rw [hrow, Option.map_some, hbase, hpenalty]

/-- An instruction of these sets P to `p`, whose flags are `flags`, and nothing else. -/
theorem exec_flagOp {i : Instr} {op : Op} {s : State} {p : Byte} {flags : Flag → Bool} (hop : i.op ∈ flagOps)
    (h : i.op = op) (hb : branchCond op s.p = none)
    (hphase : phase op .imp none (s.advance .imp) = (s.advance .imp).setP p) (hflags : ∀ f, getFlag p f = flags f) :
    ∃ t, exec i s = .next t ∧ t.a = s.a ∧ t.x = s.x ∧ t.y = s.y ∧ t.sp = s.sp ∧ Charges s t 2 ∧ RegistersOnly i s t ∧
      ∀ f, getFlag t.p f = flags f := by
  obtain ⟨himp, hcycles⟩ := flagOp_operand s hop
  have hexec : exec i s = .next (((s.advance i.operand).setP p).charge (tableCycles i s)) := by
    rw [exec_of_op s h hb, effAddr, addressedState, himp, ← hphase]
    rfl
  refine ⟨_, hexec, rfl, rfl, rfl, rfl, ?_, registersOnly_charge i s _ _ _ _ _, hflags⟩
  rw [hcycles]
  exact ⟨rfl, rfl⟩

/-- Settles O34: each of the eight sets P alone (`exec_flagOp`), NOP to what it was, the others by one `setFlag`. -/
theorem nopAndFlagInstructions : Obligations.NopAndFlagInstructions := by
  unfold Obligations.NopAndFlagInstructions
  intro i s hop
  have h := hop
  simp only [List.mem_cons, List.not_mem_nil, or_false] at h
  rcases h with hnop | h | h | h | h | h | h | h
  · exact exec_flagOp (p := s.p) hop hnop rfl rfl fun f => by simp [hnop]
  all_goals exact exec_flagOp hop h rfl rfl fun f => by simp [h, getFlag_setFlag]

/-! ## An entry or a call, then the return (44_control_flow R210 to R213, 60_exceptions R303, R304, R310) -/

/-- An accepted hardware entry pushes PC and the status with B cleared. -/
theorem hardwareEntry_entersThrough (vec : Addr) (s : State) :
    EntersThrough vec s.pc (s.p &&& 0xEF#8) s (hardwareEntry vec s) :=
  entersThrough_freeOfResult _ _ _ s _ _ _ (enterInterrupt_entersThrough vec s.pc (pushedByInterrupt s.p) s)

/-- `nmi()` is an entry through the NMI vector; the pause of its breakpoint is no part of it. -/
theorem nmiEntry_entersThrough (s : State) : EntersThrough 0xFFFA#16 s.pc (s.p &&& 0xEF#8) s (nmiEntry s) := by
  have h : EntersThrough 0xFFFA#16 s.pc (s.p &&& 0xEF#8) s (hardwareEntry Config.vecNmi s) :=
    hardwareEntry_entersThrough _ s
  unfold nmiEntry
  generalize hardwareEntry Config.vecNmi s = t at h
  dsimp only
  split <;> exact h

/-- An accepted `requestIrq()` is an entry through the IRQ vector. -/
theorem requestIrq_entersThrough {s : State} (h : getFlag s.p .i = false) :
    EntersThrough 0xFFFE#16 s.pc (s.p &&& 0xEF#8) s (requestIrq s) := by
  rw [requestIrq, if_neg (h ▸ Bool.false_ne_true)]
  exact hardwareEntry_entersThrough Config.vecIrq s

/-- RTI at a state that finds S and the frame as the entry left them. -/
theorem rti_after_entry {vec ret : Addr} {status : Byte} {s t h : State} (hentry : EntersThrough vec ret status s t)
    (hwf : s.ram.wf = true) (hsp : h.sp = t.sp)
    (hhi : h.cellByte (stackCell s.sp) = t.cellByte (stackCell s.sp))
    (hlo : h.cellByte (stackCell (s.sp - 1)) = t.cellByte (stackCell (s.sp - 1)))
    (hstatus : h.cellByte (stackCell (s.sp - 2)) = t.cellByte (stackCell (s.sp - 2))) :
    ∃ u, exec .rti h = .next u ∧ u.pc = ret ∧ u.sp = s.sp ∧ u.p = status ||| 0x20#8 := by
  obtain ⟨-, -, -, htsp, -, -, -, hframe, -⟩ := hentry
  obtain ⟨fhi, flo, fstatus⟩ := hframe hwf
  obtain ⟨-, u, hu, hp, hpc, husp, -⟩ := returns h
  have h1 : h.sp + 1 = s.sp - 2 := by rw [hsp, htsp]; bv_omega
  have h2 : h.sp + 2 = s.sp - 1 := by rw [hsp, htsp]; bv_omega
  have h3 : h.sp + 3 = s.sp := by rw [hsp, htsp]; bv_omega
  rw [h1, hstatus, fstatus] at hp
  rw [h3, h2, hhi, hlo, fhi, flo, wordOf_hi_lo] at hpc
  exact ⟨u, hu, hpc, husp.trans h3, hp⟩

/-- RTS at a state that finds S and the two pushed bytes as the JSR left them. -/
theorem rts_after_jsr {w : Addr} {s t h : State} (hcall : exec (.jsr w) s = .next t) (hwf : s.ram.wf = true)
    (hsp : h.sp = t.sp) (hhi : h.cellByte (stackCell s.sp) = t.cellByte (stackCell s.sp))
    (hlo : h.cellByte (stackCell (s.sp - 1)) = t.cellByte (stackCell (s.sp - 1))) :
    ∃ u, exec .rts h = .next u ∧ u.pc = s.pc + 3 ∧ u.sp = s.sp ∧ u.p = h.p := by
  obtain ⟨-, t', ht', -, -, -, -, htsp, -, -, -, -, -, hframe, -⟩ := jumpsAndCalls w s
  obtain rfl : t = t' := Host.Outcome.next.inj (hcall.symm.trans ht')
  obtain ⟨fhi, flo⟩ := hframe hwf
  obtain ⟨⟨u, hu, hpc, husp, -, -, -, hp, -⟩, -⟩ := returns h
  have h1 : h.sp + 1 = s.sp - 1 := by rw [hsp, htsp]; bv_omega
  have h2 : h.sp + 2 = s.sp := by rw [hsp, htsp]; bv_omega
  have hret : s.pc + 2 + 1 = s.pc + 3 := by bv_omega
  rw [h2, h1, hhi, hlo, fhi, flo, wordOf_hi_lo, hret] at hpc
  exact ⟨u, hu, hpc, husp.trans h2, hp⟩

/-- Settles O37: NMI, an accepted IRQ and BRK are entries whose frame RTI takes back (`rti_after_entry`), and RTS takes
back the word of a JSR (`rts_after_jsr`). -/
theorem entryThenReturnResumes : Obligations.EntryThenReturnResumes := by
  unfold Obligations.EntryThenReturnResumes
  intro s t h hwf hsp hhi hlo
  refine ⟨fun hstatus => ⟨fun hmove => ?hardware, fun hbrk => ?brk⟩, fun w hcall => rts_after_jsr hcall hwf hsp hhi hlo⟩
  case hardware =>
    have hentry : ∃ vec, EntersThrough vec s.pc (s.p &&& 0xEF#8) s t := by
      rcases hmove with hnmi | ⟨hi, hirq⟩
      · cases hnmi
        exact ⟨_, nmiEntry_entersThrough s⟩
      · cases hirq
        exact ⟨_, requestIrq_entersThrough hi⟩
    obtain ⟨vec, hentry⟩ := hentry
    have hbits : (s.p ||| 0x20#8) &&& 0xEF#8 = s.p &&& 0xEF#8 ||| 0x20#8 := BitVec.and_or_distrib_right
    rw [hbits]
    exact rti_after_entry hentry hwf hsp hhi hlo hstatus
  case brk =>
    obtain ⟨t', ht', hentry, -⟩ := breakEntersIrqVector s
    obtain rfl : t = t' := Host.Outcome.next.inj (hbrk.symm.trans ht')
    have hbits : s.p ||| 0x30#8 = s.p ||| 0x30#8 ||| 0x20#8 := by rw [BitVec.or_assoc]; rfl
    rw [hbits]
    exact rti_after_entry hentry hwf hsp hhi hlo hstatus

end Sys2Proof.Machine

/-! # Family 50_apu: status register, game pads, frame sequencer, channels, audio values

Each operation of the APU is said once, as an equation or a case per lemma; a statement on the bus is then one access of
the window (`busRead_apu`, `busWrite_apu`) and the operation's lemma. -/

namespace Sys2Proof.Machine

/-! ## The status register (50_apu R260 to R263, R281) -/

theorem busRead_apu (a : Addr) (s : State) (hlo : 0x4000 ≤ a.toNat) (hhi : a.toNat < 0x4020) :
    busRead a s = apuRead (a.setWidth 5) s := by
  simp only [busRead, decodeAddr_apu a hlo hhi]

theorem getLsbD_bitIf (i j : Nat) (b : Bool) :
    (bitIf i b).getLsbD j = (b && decide (i = j) && decide (j < 8)) := by
  cases b with
  | false => simp [bitIf]
  | true =>
    rw [bitIf, if_pos rfl, ← BitVec.twoPow_eq, BitVec.getLsbD_twoPow]
    by_cases hij : i = j
    · subst hij; simp
    · simp [hij]

/-- DMC enable and disable, field by field (50_apu R281). -/
theorem Dmc.enable_eq (c : Dmc) (e : Bool) :
    c.enable e =
      { c with
        dmaLength := if e = false then 0 else if c.dmaLength = 0 then c.primeLength else c.dmaLength
        stopped := if e = false then true else if c.dmaLength = 0 then false else c.stopped } := by
  cases e with
  | false => rfl
  | true => by_cases h : c.dmaLength = 0 <;> simp [Dmc.enable, h]

theorem Apu.write_status (t : Vector Byte 32) (u : Apu) (v : Byte) :
    u.write t 0x15 v = (u.setReg 0x15 v).statusWrite v := rfl

/-- Settles O55: the bits are those of the composed byte (`getLsbD_bitIf`); the write is `Apu.statusWrite` on the new
mirror, its DMC part `Dmc.enable_eq`. -/
theorem statusRegister : Obligations.StatusRegister := by
  unfold Obligations.StatusRegister
  intro s v
  refine ⟨⟨s.apu.statusByte, busRead_apu _ s (by decide) (by decide), ?bits⟩, ?write⟩
  case bits =>
    simp only [Apu.statusByte, BitVec.getLsbD_or, getLsbD_bitIf]
    simp [Pulse.isPlaying, Triangle.isPlaying, Noise.isPlaying, Dmc.isPlaying]
  case write =>
    have hindex : (0x4015#16).setWidth 5 = (0x15 : BitVec 5) := rfl
    rw [busWrite_apu _ v s (by decide) (by decide), apuWrite_eq, hindex, Apu.write_status, Apu.statusWrite,
      Dmc.enable_eq]
    rfl

/-! ## The game pads (50_apu R283 to R285) -/

/-- Bits cleared under a condition. -/
theorem getLsbD_clearedIf (b : Bool) (mask m : Byte) (j : Nat) :
    (if b then mask &&& ~~~m else mask).getLsbD j = (mask.getLsbD j && !(b && m.getLsbD j)) := by
  cases b with
  | false => simp
  | true =>
    have hj : mask.getLsbD j = true → j < 8 := BitVec.lt_of_getLsbD
    cases hb : mask.getLsbD j <;> simp_all

/-- The mask of Left and Right, and the mask of Up and Down. -/
theorem getLsbD_opposing (j : Nat) :
    (0xC0#8).getLsbD j = decide (j = 6 ∨ j = 7) ∧ (0x30#8).getLsbD j = decide (j = 4 ∨ j = 5) := by
  by_cases hj : j < 8
  · have hall : ∀ i : Fin 8, (0xC0#8).getLsbD i = decide (i.val = 6 ∨ i.val = 7) ∧
        (0x30#8).getLsbD i = decide (i.val = 4 ∨ i.val = 5) := by decide
    exact hall ⟨j, hj⟩
  · rw [BitVec.getLsbD_of_ge _ _ (by omega), BitVec.getLsbD_of_ge _ _ (by omega)]
    constructor <;> exact (decide_eq_false (by omega)).symm

/-- Opposing directions are removed, each pair on its own: the first removal leaves Up and Down alone. -/
theorem getLsbD_maskOpposing (mask : Byte) (j : Nat) :
    (maskOpposing mask).getLsbD j =
      (mask.getLsbD j && !(decide (j = 6 ∨ j = 7) && mask.getLsbD 6 && mask.getLsbD 7) &&
        !(decide (j = 4 ∨ j = 5) && mask.getLsbD 4 && mask.getLsbD 5)) := by
  unfold maskOpposing
  simp only [getLsbD_clearedIf, getLsbD_opposing]
  simp [Bool.and_comm, Bool.and_left_comm, Bool.and_assoc]

theorem Apu.write_strobe (t : Vector Byte 32) (u : Apu) (v : Byte) :
    u.write t 0x16 v = (u.setReg 0x16 v).strobeWrite u.strobe v := rfl

/-- Both pads are latched on the falling edge and on no other write (50_apu R284). -/
theorem Apu.strobeWrite_eq (u : Apu) (old : Bool) (v : Byte) :
    u.strobeWrite old v =
      { u with
        padShift0 := if old = true ∧ v.getLsbD 0 = false then u.padStatus0 else u.padShift0
        padShift1 := if old = true ∧ v.getLsbD 0 = false then u.padStatus1 else u.padShift1 } := by
  unfold Apu.strobeWrite
  cases old <;> cases v.getLsbD 0 <;> rfl

/-- The bus address of a pad register. -/
def Pad.addr : Pad → Addr
  | .pad0 => 0x4016#16
  | .pad1 => 0x4017#16

/-- The latch of a pad. -/
def Apu.padShift (u : Apu) : Pad → Byte
  | .pad0 => u.padShift0
  | .pad1 => u.padShift1

/-- The APU with another latch of a pad. -/
def Apu.setPadShift (u : Apu) (b : Byte) : Pad → Apu
  | .pad0 => { u with padShift0 := b }
  | .pad1 => { u with padShift1 := b }

theorem busRead_pad (i : Pad) (s : State) :
    busRead i.addr s =
      (s.apu.padShift i &&& 1#8, { s with apu := s.apu.setPadShift (s.apu.padShift i >>> 1) i }) := by
  cases i <;> exact busRead_apu _ s (by decide) (by decide)

/-- `k` reads shift the latch by `k` (50_apu R285). -/
theorem afterReads_pad (i : Pad) (k : Nat) (s : State) :
    afterReads i.addr k s = { s with apu := s.apu.setPadShift (s.apu.padShift i >>> k) i } := by
  induction k with
  | zero => rw [BitVec.ushiftRight_zero]; cases i <;> rfl
  | succ k ih =>
    rw [afterReads, ih, busRead_pad, BitVec.shiftRight_add]
    cases i <;> rfl

/-- The read after `k` reads answers bit `k` of the latch (50_apu R285). -/
theorem busRead_pad_afterReads (i : Pad) (k : Nat) (s : State) :
    (busRead i.addr (afterReads i.addr k s)).1 = if (s.apu.padShift i).getLsbD k = true then 1#8 else 0#8 := by
  have hshift : (busRead i.addr (afterReads i.addr k s)).1 = s.apu.padShift i >>> k &&& 1#8 := by
    rw [busRead_pad, afterReads_pad]
    cases i <;> rfl
  rw [hshift, BitVec.and_one_eq_setWidth_ofBool_getLsbD, BitVec.getLsbD_ushiftRight, Nat.add_zero]
  cases (s.apu.padShift i).getLsbD k <;> rfl

/-- Settles O56: the mask bit by bit is `getLsbD_maskOpposing`, the latch `Apu.strobeWrite_eq`, and `k` reads shift by
`k` (`afterReads_pad`). -/
theorem gamePads : Obligations.GamePads := by
  unfold Obligations.GamePads
  intro s mask v k
  refine ⟨⟨maskOpposing mask, rfl, rfl, getLsbD_maskOpposing mask⟩, ?strobe, busRead_pad_afterReads .pad0 k s,
    busRead_pad_afterReads .pad1 k s, congrArg Prod.snd (busRead_pad .pad0 s), congrArg Prod.snd (busRead_pad .pad1 s)⟩
  have hindex : (0x4016#16).setWidth 5 = (0x16 : BitVec 5) := rfl
  rw [busWrite_apu _ v s (by decide) (by decide), apuWrite_eq, hindex, Apu.write_strobe, Apu.strobeWrite_eq]
  rfl

/-! ## The frame sequencer (50_apu R252 to R255, R282) -/

/-- The DMC after a scanline: idle at 0, reloaded or stopped at 1, else one less (50_apu R282). -/
theorem Dmc.scanline_fst (c : Dmc) :
    c.scanline.1 =
      if c.dmaLength = 0 then c
      else if c.dmaLength = 1 then
        if c.regs.r0.getLsbD 6 = true then { c with dmaLength := c.primeLength }
        else { c with dmaLength := 0, stopped := true }
      else { c with dmaLength := c.dmaLength - 1 } := by
  unfold Dmc.scanline
  by_cases h0 : c.dmaLength = 0
  · simp only [if_pos h0]
  · have hone : c.dmaLength - 1 = 0 ↔ c.dmaLength = 1 := by omega
    simp only [if_neg h0, hone, apply_ite Prod.fst]

/-- Settles O57: the move is `onHblank_eq`; what the DMC and the vblank tick raise stands in its lists of events, and
each is one event. -/
theorem frameSequencer : Obligations.FrameSequencer := by
  unfold Obligations.FrameSequencer
  intro n s
  have hdmc : s.apu.dmc.scanline.2 = true ↔ s.apu.dmc.dmaLength = 1 ∧ s.apu.dmc.regs.r0.getLsbD 6 = false ∧
      s.apu.dmc.regs.r0.getLsbD 7 = true := by
    rw [Dmc.scanline_irq_iff, and_comm (a := s.apu.dmc.regs.r0.getLsbD 7 = true)]
  have hframe : (decide (n = s.params.vblankScanline) && !s.apu.frameInhibited) = true ↔
      n = s.params.vblankScanline ∧ (s.apu.reg 0x17).getLsbD 6 = false := by
    rw [Bool.and_eq_true, decide_eq_true_eq, Bool.not_eq_true', Apu.frameInhibited]
  refine ⟨_, congrArg (fun t => Host.Outcome.next (State.returns t .nothing)) (onHblank_eq n s),
    s.apu.dmc.scanline_fst, ?dmcIrq, ?frameIrq, ?p1, ?p2, ?tri, ?noi, rfl, rfl, rfl, rfl, rfl, ?events, ?note, rfl⟩
  case dmcIrq => exact Bool.or_eq_true_iff.trans (or_congr_right hdmc)
  case frameIrq => exact Bool.or_eq_true_iff.trans (or_congr_right hframe)
  case p1 => exact if_congr decide_eq_true_iff rfl rfl
  case p2 => exact if_congr decide_eq_true_iff rfl rfl
  case tri => exact if_congr decide_eq_true_iff rfl rfl
  case noi => exact if_congr decide_eq_true_iff rfl rfl
  case events =>
    exact congrArg₂ (· ++ · ++ s.events) (if_congr hframe rfl rfl) (if_congr hdmc rfl rfl)
  case note =>
    simp only [State.returns, List.length_append]
    cases s.apu.dmc.scanline.2 <;> cases (decide (n = s.params.vblankScanline) && !s.apu.frameInhibited) <;> simp

/-! ## The vblank ticks (50_apu R269 to R272, R275, R278) -/

/-- The length step stops the channel exactly when it is not halted and has at most `dec` left (50_apu R270). -/
theorem lengthStops_eq (length dec : Nat) (halt : Bool) :
    lengthStops length dec halt = decide (halt = false ∧ length ≤ dec) := by
  cases halt <;> simp [lengthStops, Nat.sub_eq_zero_iff_le]

/-! ### The sweep unit (50_apu R272) -/

theorem ChanRegs.setPeriod_r3 (g : ChanRegs) (t : Nat) :
    (g.setPeriod t).r3.toNat = g.r3.toNat / 8 * 8 + t / 256 % 8 := by
  have hhigh : ∀ b : Byte, (b &&& 0xF8#8).toNat = (b.toNat / 8) <<< 3 := by decide
  have hlow : ∀ b : Byte, (b &&& 0x07#8).toNat = b.toNat % 8 := by decide
  have hsmall : t / 256 % 2 ^ 8 % 8 < 2 ^ 3 := Nat.mod_lt _ (by decide)
  rw [ChanRegs.setPeriod, BitVec.toNat_or, hhigh, hlow, BitVec.toNat_ofNat, ← Nat.shiftLeft_add_eq_or_of_lt hsmall,
    Nat.shiftLeft_eq]
  omega

/-- A period written is the period read back, when it has 11 bits. -/
theorem ChanRegs.period_setPeriod (g : ChanRegs) (t : Nat) (h : t ≤ 0x7FF) : (g.setPeriod t).period = t := by
  have hr2 : (g.setPeriod t).r2.toNat = t % 256 := BitVec.toNat_ofNat t 8
  rw [ChanRegs.period, ChanRegs.setPeriod_r3, hr2]
  omega

/-- Registers retuned to a target in range have it as their period, and the upper bits of the last one as before
(50_apu R272). -/
theorem ChanRegs.setPeriod_sweepTarget {g : ChanRegs} (hlo : 8 ≤ g.sweepTarget) (hhi : g.sweepTarget ≤ 0x7FF) :
    ((g.setPeriod g.sweepTarget.toNat).period : Int) = g.sweepTarget ∧
      (g.setPeriod g.sweepTarget.toNat).r3.toNat / 8 = g.r3.toNat / 8 := by
  constructor
  · rw [ChanRegs.period_setPeriod _ _ (by omega)]
    omega
  · rw [ChanRegs.setPeriod_r3]
    omega

/-- The target is the period less or plus its shifted copy. -/
theorem ChanRegs.sweepTarget_eq (g : ChanRegs) :
    g.sweepTarget =
      if g.r1.getLsbD 3 = true then (g.period : Int) - (g.period / 2 ^ (g.r1.toNat % 8) : Nat)
      else (g.period : Int) + (g.period / 2 ^ (g.r1.toNat % 8) : Nat) := by
  simp only [ChanRegs.sweepTarget, Nat.shiftRight_eq_div_pow]

/-- The sweep unit touches neither the length, the envelope, the enable bit nor the first two registers. -/
theorem Pulse.sweepStep_keeps (c : Pulse) :
    c.sweepStep.length = c.length ∧ c.sweepStep.env = c.env ∧ c.sweepStep.enabled = c.enabled ∧
      c.sweepStep.regs.r0 = c.regs.r0 ∧ c.sweepStep.regs.r1 = c.regs.r1 := by
  unfold Pulse.sweepStep
  split
  · exact ⟨rfl, rfl, rfl, rfl, rfl⟩
  · split
    · dsimp only
      split <;> exact ⟨rfl, rfl, rfl, rfl, rfl⟩
    · exact ⟨rfl, rfl, rfl, rfl, rfl⟩

theorem Pulse.sweepStep_disabled (c : Pulse) (h : c.regs.r1.getLsbD 7 = false) : c.sweepStep = c := by
  rw [Pulse.sweepStep, if_pos (by rw [h]; rfl)]

section Enabled

variable {c : Pulse} (hon : c.regs.r1.getLsbD 7 = true)
include hon

theorem Pulse.sweepStep_waits (h : c.sweepCounter + 2 < c.regs.r1.toNat / 16 % 8 + 1) :
    c.sweepStep = { c with sweepCounter := c.sweepCounter + 2 } := by
  simp [Pulse.sweepStep, hon, Nat.not_le.mpr h]

theorem Pulse.sweepStep_silences (hfire : c.regs.r1.toNat / 16 % 8 + 1 ≤ c.sweepCounter + 2)
    (h : 0x7FF < c.regs.sweepTarget ∨ c.regs.sweepTarget < 8) :
    c.sweepStep = { c with sweepCounter := 0, stopped := true } := by
  simp [Pulse.sweepStep, hon, hfire, h]

theorem Pulse.sweepStep_retunes (hfire : c.regs.r1.toNat / 16 % 8 + 1 ≤ c.sweepCounter + 2)
    (hlo : 8 ≤ c.regs.sweepTarget) (hhi : c.regs.sweepTarget ≤ 0x7FF) :
    c.sweepStep = { c with sweepCounter := 0, regs := c.regs.setPeriod c.regs.sweepTarget.toNat } := by
  simp [Pulse.sweepStep, hon, hfire, Int.not_lt.mpr hlo, Int.not_lt.mpr hhi]

end Enabled

/-! ### The channels -/

/-- A pulse channel after the length and envelope steps of a tick (50_apu R269). -/
def Pulse.counted (c : Pulse) : Pulse :=
  { c with
    length := lengthAfter c.length 4 c.regs.halt
    stopped := decide (c.regs.halt = false ∧ c.length ≤ 4)
    env := c.env.step c.regs }

/-- The tick of a channel that is not stopped is the length and envelope steps, then the sweep (50_apu R269). -/
theorem Pulse.tick_running {c : Pulse} (h : c.stopped = false) : c.tick = c.counted.sweepStep := by
  rw [Pulse.tick, if_neg (h ▸ Bool.false_ne_true), lengthStops_eq, Pulse.counted]

theorem Triangle.tick_running {c : Triangle} (h : c.stopped = false) :
    c.tick = { c with
      length := lengthAfter c.length 4 (c.regs.r0.getLsbD 7)
      stopped := decide (c.regs.r0.getLsbD 7 = false ∧ c.length ≤ 4) } := by
  rw [Triangle.tick, if_neg (h ▸ Bool.false_ne_true), lengthStops_eq]

theorem Noise.tick_running {c : Noise} (h : c.stopped = false) :
    c.tick = { c with
      length := lengthAfter c.length 1 c.regs.halt
      stopped := decide (c.regs.halt = false ∧ c.length ≤ 1)
      env := c.env.step c.regs } := by
  rw [Noise.tick, if_neg (h ▸ Bool.false_ne_true), lengthStops_eq]

/-! ### The envelope (50_apu R271) -/

theorem Envelope.step_reset {e : Envelope} (g : ChanRegs) (h : e.reset = true) :
    e.step g = { divider := g.nibble, counter := 15, reset := false } := by
  simp [Envelope.step, h]

theorem Envelope.step_divides {e : Envelope} (g : ChanRegs) (h : e.reset = false) (hd : 4 ≤ e.divider) :
    e.step g = { e with divider := e.divider - 4 } := by
  simp [Envelope.step, h, Nat.not_lt.mpr hd]

theorem Envelope.step_counts {e : Envelope} (g : ChanRegs) (h : e.reset = false) (hd : e.divider < 4) :
    e.step g =
      { e with
        divider := g.nibble
        counter := if 0 < e.counter then e.counter - 1 else if g.halt then 15 else 0 } := by
  simp [Envelope.step, h, hd]

/-- Settles O58: a running pulse channel counts, then sweeps (`Pulse.tick_running`), and the sweep has one lemma per case;
triangle and noise count alone; the envelope has one lemma per case. -/
theorem channelTicks : Obligations.ChannelTicks := by
  unfold Obligations.ChannelTicks
  refine ⟨fun c h => if_pos h, fun c h => if_pos h, fun c h => if_pos h, fun c h => ?pulse,
    fun c h => Triangle.tick_running h, fun c h => Noise.tick_running h, fun e g => ?envelope⟩
  case pulse =>
    rw [Pulse.tick_running h]
    obtain ⟨hlength, henv, henabled, hr0, hr1⟩ := c.counted.sweepStep_keeps
    refine ⟨hlength, henv, henabled, hr0, hr1, fun hoff => ?disabled, fun hon hwait => ?waits,
      fun hon hfire target htarget => ?fires⟩
    case disabled =>
      rw [Pulse.sweepStep_disabled c.counted hoff]
      exact ⟨rfl, rfl, rfl⟩
    case waits =>
      rw [Pulse.sweepStep_waits (c := c.counted) hon hwait]
      exact ⟨rfl, rfl, rfl⟩
    case fires =>
      obtain rfl : target = c.counted.regs.sweepTarget := htarget.trans c.regs.sweepTarget_eq.symm
      have hsilenced := Pulse.sweepStep_silences (c := c.counted) hon hfire
      have hretuned := Pulse.sweepStep_retunes (c := c.counted) hon hfire
      refine ⟨?counter, fun hout => ?silences, fun hlo hhi => ?retunes⟩
      case counter =>
        by_cases hout : 0x7FF < c.counted.regs.sweepTarget ∨ c.counted.regs.sweepTarget < 8
        · rw [hsilenced hout]
        · rw [hretuned (by omega) (by omega)]
      case silences =>
        rw [hsilenced hout]
        exact ⟨rfl, rfl⟩
      case retunes =>
        rw [hretuned hlo hhi]
        exact ⟨rfl, ChanRegs.setPeriod_sweepTarget hlo hhi⟩
  case envelope =>
    refine ⟨Envelope.step_reset g, Envelope.step_divides g, fun h hd hc => ?counts, fun h hd hc => ?atZero⟩
    case counts =>
      rw [Envelope.step_counts g h hd, if_pos hc]
      rfl
    case atZero =>
      rw [Envelope.step_counts g h hd, if_neg (by omega)]
      rfl

/-! ## Channel writes (50_apu R256, R266, R274, R277, R280, R287) -/

theorem lengthIndex_toNat (v : Byte) : (lengthIndex v).toNat = v.toNat / 8 := by
  rw [lengthIndex, BitVec.toNat_setWidth, BitVec.toNat_ushiftRight, Nat.shiftRight_eq_div_pow]
  omega

/-- The length a write of `v` loads: 0x0A for index 0, else the table's entry (50_apu R287). -/
theorem lengthEntry_lengthIndex (t : Vector Byte 32) (v : Byte) :
    (v.toNat / 8 = 0 → lengthEntry t (lengthIndex v) = 0x0A) ∧
      ∀ k : Fin 32, 0 < k.val → v.toNat / 8 = k.val → lengthEntry t (lengthIndex v) = t[k].toNat := by
  refine ⟨fun h => if_pos ?zero, fun k hk h => ?entry⟩
  case zero =>
    exact BitVec.eq_of_toNat_eq ((lengthIndex_toNat v).trans h)
  case entry =>
    have hindex := (lengthIndex_toNat v).trans h
    have hne : lengthIndex v ≠ 0 := by
      intro hzero
      rw [hzero] at hindex
      exact hk.ne hindex
    rw [lengthEntry, if_neg hne]
    simp only [hindex, Fin.getElem_fin]

/-- The index of register `r` of channel `k` fits the window. -/
theorem channelIndex_toNat {k : Nat} (hk : k < 5) (r : BitVec 2) :
    (BitVec.ofNat 5 (4 * k + r.toNat)).toNat = 4 * k + r.toNat := by
  rw [BitVec.toNat_ofNat]
  omega

/-- A write to register `r` of channel `k` stores the mirror's byte and writes that channel alone (50_apu R250, R256). -/
theorem Apu.write_channel (t : Vector Byte 32) (u : Apu) (k : Nat) (r : BitVec 2) (v : Byte) (hk : k < 5) :
    u.write t (BitVec.ofNat 5 (4 * k + r.toNat)) v =
      { u.setReg (BitVec.ofNat 5 (4 * k + r.toNat)) v with
        p1 := if k = 0 then u.p1.write t r v else u.p1
        p2 := if k = 1 then u.p2.write t r v else u.p2
        tri := if k = 2 then u.tri.write r v else u.tri
        noi := if k = 3 then u.noi.write t r v else u.noi
        dmc := if k = 4 then u.dmc.write r v else u.dmc } := by
  have hr := r.isLt
  have hi := channelIndex_toNat hk r
  have hreg : (BitVec.ofNat 5 (4 * k + r.toNat)).setWidth 2 = r := by
    apply BitVec.eq_of_toNat_eq
    rw [BitVec.toNat_setWidth, hi]
    omega
  have hchan : (4 * k + r.toNat) / 4 = k := by omega
  have hwindow : 4 * k + r.toNat ≤ 0x13 := by omega
  simp only [Apu.write, Apu.channelWrite, hi, hreg, hchan, if_pos hwindow]
  interval_cases k <;> rfl

/-- Settles O59: a channel's write is computed register by register, the loaded length is `lengthEntry_lengthIndex`, and
the bus write goes to one channel (`Apu.write_channel`). -/
theorem channelWrites : Obligations.ChannelWrites := by
  unfold Obligations.ChannelWrites
  intro t v
  refine ⟨fun c => ⟨rfl, rfl, rfl, _, rfl, lengthEntry_lengthIndex t v⟩,
    fun c => ⟨rfl, rfl, rfl, _, rfl, lengthEntry_lengthIndex t v⟩, fun c => ⟨rfl, rfl, rfl, rfl⟩,
    fun c => ⟨rfl, rfl, rfl, rfl⟩, fun s k r hk => ?bus⟩
  have hr := r.isLt
  have haddr : (BitVec.ofNat 16 (0x4000 + 4 * k + r.toNat)).toNat = 0x4000 + 4 * k + r.toNat := by
    rw [BitVec.toNat_ofNat]
    omega
  have hindex : (BitVec.ofNat 16 (0x4000 + 4 * k + r.toNat)).setWidth 5 = BitVec.ofNat 5 (4 * k + r.toNat) := by
    apply BitVec.eq_of_toNat_eq
    rw [BitVec.toNat_setWidth, haddr, BitVec.toNat_ofNat]
    omega
  have hevent : BitVec.ofNat 5 (4 * k + r.toNat) ≠ 0x14 := by
    intro h
    have h20 : 20 = 4 * k + r.toNat := (congrArg BitVec.toNat h).symm.trans (channelIndex_toNat hk r)
    omega
  rw [busWrite_apu _ v s (by omega) (by omega), apuWrite_eq, hindex, Apu.write_channel _ _ k r v hk, if_neg hevent]

/-! ## Derived audio values (50_apu R273, R276, R279, R282) -/

section EnvelopeVolume

variable {stopped enabled : Bool} {g : ChanRegs} {e : Envelope}

theorem envelopeVolume_silent (h : stopped = true ∨ enabled = false) : envelopeVolume stopped enabled g e = 0 := by
  rcases h with rfl | rfl <;> simp [envelopeVolume]

theorem envelopeVolume_constant (hs : stopped = false) (he : enabled = true) (h : g.r0.getLsbD 4 = true) :
    envelopeVolume stopped enabled g e * 15 = ((g.r0.toNat % 16 : Nat) : Rat) := by
  have hv : envelopeVolume stopped enabled g e = (g.nibble : Rat) / 15 := by simp [envelopeVolume, hs, he, h]
  rw [hv, div_mul_cancel₀ _ (by norm_num), ChanRegs.nibble]

theorem envelopeVolume_envelope (hs : stopped = false) (he : enabled = true) (h : g.r0.getLsbD 4 = false) :
    envelopeVolume stopped enabled g e * 15 = (e.counter : Rat) := by
  have hv : envelopeVolume stopped enabled g e = (e.counter : Rat) / 15 := by
    simp only [envelopeVolume, hs, he, h, Bool.not_true, Bool.or_false, Bool.false_eq_true, if_false]
  rw [hv, div_mul_cancel₀ _ (by norm_num)]

/-- A fifteenth of at most 15 lies in 0 to 1. -/
theorem envelopeVolume_mem (h : e.counter ≤ 15) :
    0 ≤ envelopeVolume stopped enabled g e ∧ envelopeVolume stopped enabled g e ≤ 1 := by
  have hfifteenth (n : Nat) (hn : n ≤ 15) : (0 : Rat) ≤ n / 15 ∧ (n : Rat) / 15 ≤ 1 := by
    have : (n : Rat) ≤ 15 := by exact_mod_cast hn
    exact ⟨by positivity, div_le_one_of_le₀ this (by norm_num)⟩
  unfold envelopeVolume
  split
  · exact ⟨le_rfl, zero_le_one⟩
  · split
    · exact hfifteenth _ (Nat.le_of_lt_succ (Nat.mod_lt _ (by decide)))
    · exact hfifteenth _ h

end EnvelopeVolume

theorem Pulse.counter_le {c : Pulse} (h : c.bounded = true) : c.env.counter ≤ 15 := by
  simp only [Pulse.bounded, Envelope.bounded, Bool.and_eq_true, decide_eq_true_eq] at h
  obtain ⟨⟨-, -, hcounter⟩, -⟩ := h
  exact hcounter

theorem Noise.counter_le {c : Noise} (h : c.bounded = true) : c.env.counter ≤ 15 := by
  simp only [Noise.bounded, Envelope.bounded, Bool.and_eq_true, decide_eq_true_eq] at h
  obtain ⟨-, -, hcounter⟩ := h
  exact hcounter

theorem periodFrequency_mul (clock period : Nat) {divisor : Nat} (h : 0 < divisor) :
    periodFrequency clock divisor period * ((divisor * (period + 1) : Nat) : Rat) = clock := by
  have hne : ((divisor * (period + 1) : Nat) : Rat) ≠ 0 := Nat.cast_ne_zero.mpr (by positivity)
  exact div_mul_cancel₀ _ hne

/-- Settles O60: pulse and noise volume are `envelopeVolume`, whose cases and range are said once; the frequencies are
`periodFrequency` or a table's entry. -/
theorem audioDerivedValues : Obligations.AudioDerivedValues := by
  unfold Obligations.AudioDerivedValues
  refine ⟨fun c h => envelopeVolume_mem (Pulse.counter_le h), fun c h => envelopeVolume_mem (Noise.counter_le h),
    fun c => ⟨envelopeVolume_silent, envelopeVolume_constant, envelopeVolume_envelope⟩,
    fun c => ⟨envelopeVolume_silent, envelopeVolume_constant, envelopeVolume_envelope⟩,
    fun c => ?triangle, fun c => ?dmc, fun p c d => ⟨periodFrequency_mul _ _, periodFrequency_mul _ _,
      fun k hk => ?duty, fun e k hk => ?noise, fun _ => rfl, fun _ _ => ?half⟩⟩
  case triangle =>
    have hsilent : (c.stopped || !c.enabled) = true ↔ c.stopped = true ∨ c.enabled = false := by simp
    exact if_congr hsilent rfl rfl
  case dmc =>
    have hplays : (c.isPlaying && c.enabled) = true ↔
        ¬(c.stopped = true ∨ c.dmaLength = 0 ∨ c.enabled = false) := by
      simp [Dmc.isPlaying, Nat.pos_iff_ne_zero, and_assoc]
    rw [Dmc.volume, if_congr hplays rfl rfl, ite_not]
  case duty =>
    have hi : ((c.regs.r0 >>> 6).setWidth 2).toNat = k.val := by
      rw [BitVec.toNat_setWidth, BitVec.toNat_ushiftRight, Nat.shiftRight_eq_div_pow]
      omega
    simp only [Pulse.dutyRatio, hi, Fin.getElem_fin]
  case noise =>
    have hi : (e.regs.r2.setWidth 4).toNat = k.val := by rw [BitVec.toNat_setWidth]; exact hk
    simp only [Noise.frequency, periodFrequency, hi, Fin.getElem_fin]
  case half =>
    have h : fixedDutyRatio * 2 = 1 := by norm_num [fixedDutyRatio]
    exact ⟨h, h, h⟩

end Sys2Proof.Machine

/-! # Family 60_exceptions: pauses, interrupt entries, the end of a step, debug state

Each section says once what one operation does, field by field or case by case (a host move, the end of a step, a
hardware entry, a delivery), and settles the statements about it. The last shows that clearing the debug state commutes
with all of them. -/

namespace Sys2Proof.Machine

/-! ## No step raises `IllegalMode` (60_exceptions R302) -/

@[simp] theorem onHblank_pauseReason (n : Nat) (s : State) : (onHblank n s).pauseReason = s.pauseReason := by
  rw [onHblank_eq]

@[simp] theorem setWatchpoint_pauseReason (a : Addr) (k : Access) (on : Bool) (s : State) :
    (setWatchpoint a k on s).pauseReason = s.pauseReason := by cases k <;> rfl

@[simp] theorem cpuLoad_pauseReason (l : CpuSnapshot) (s : State) : (cpuLoad l s).pauseReason = s.pauseReason := by
  unfold cpuLoad; split <;> rfl

@[simp] theorem apuLoad_pauseReason (m : List Byte) (s : State) : (apuLoad m s).pauseReason = s.pauseReason := by
  unfold apuLoad; split <;> rfl

/-- Having another pause reason than `IllegalMode` is closed under what instructions, entries and the ends of a step are
made of: each pause records one of the four other reasons (60_exceptions R301, R303, R314, R315). -/
theorem moveClosed_notIllegalMode : MoveClosed fun s => s.pauseReason ≠ some .illegalMode where
  regs _ _ _ _ _ _ _ _ h := h
  note _ _ h := h
  read a s h := by rwa [busRead_pauseReason]
  write a v s h := by rwa [busWrite_pauseReason]
  result _ _ _ h := h
  finish s e h := by
    obtain ⟨pa, pr, l, he, -, hpr, -⟩ := finish_fields s e
    rw [he]
    rcases hpr with hpr | hpr
    · exact hpr ▸ h
    · exact hpr
  unmapped _ _ _ := by simp [State.unmappedPause, State.pause]
  nmiPause _ _ := by simp [State.pause]
  clearLog _ h := h

/-- No move of the host changes the pause reason by its own update. -/
theorem moveKeeps_notIllegalMode (m : HostMove) : MoveKeeps (fun s => s.pauseReason ≠ some .illegalMode) m := by
  have same {s t : State} (hr : t.pauseReason = s.pauseReason) (h : s.pauseReason ≠ some .illegalMode) :
      t.pauseReason ≠ some .illegalMode := by rwa [hr]
  cases m with
  | onHblank n => exact fun s h => same (onHblank_pauseReason n s) h
  | systemReset => exact ⟨fun k s h => same (s.setMapper_pauseReason k) h, fun _ h => h⟩
  | wpEnable a k => exact fun s h => same (setWatchpoint_pauseReason a k true s) h
  | wpDisable a k => exact fun s h => same (setWatchpoint_pauseReason a k false s) h
  | cpuLoad l => exact fun s h => same (cpuLoad_pauseReason l s) h
  | apuLoad l => exact fun s h => same (apuLoad_pauseReason l s) h
  | apuReset | setStatus | bpEnable | bpDisable | bpEnableNmi | bpDisableNmi | bpClearAll | resume | deliverIrq
  | boundary => exact fun _ h => h
  | step | nmi | requestIrq | cpuReset | stepLog | cpuSave | apuSave | stepUnlessPaused => trivial

/-- Settles O39: of everything a step is made of only its pauses write the reason, and none writes `IllegalMode`. -/
theorem illegalModeNeverRaised : Obligations.IllegalModeNeverRaised := by
  unfold Obligations.IllegalModeNeverRaised
  intro s t hs hstep
  exact moveClosed_notIllegalMode.step (fun _ _ h => h) s t (fun m _ => moveKeeps_notIllegalMode m) hs hstep

/-! ## What a step answers (00_scope R12, 60_exceptions R300, R301) -/

/-- A step is the head of the script, `step()` when the script is empty, run on the rest of the script. -/
theorem step_eq_hostMove (s : State) :
    step s = hostMove (s.script.headD .step) { s with script := s.script.tail } := by
  unfold step nextMove
  cases hs : s.script with
  | nil =>
    have he : { s with script := [] } = s := by rw [← hs]
    rw [List.headD_nil, List.tail_nil, he]
  | cons m rest => rfl

theorem headD_step_iff (l : List HostMove) : l.headD .step = .step ↔ l = [] ∨ l.head? = some .step := by
  cases l <;> simp

/-- `step()` of a CPU at an unmapped opcode byte is the pause (60_exceptions R301). -/
theorem cpuStep_unmapped {s : State} (h : tableRow (busRead s.pc s).1 = none) :
    cpuStep s = .next ((busRead s.pc s).2.unmappedPause (busRead s.pc s).1) := by
  rcases fetch_outcomes s with ⟨-, hf⟩ | ⟨i, s1, hrow, -, -⟩
  · simp only [cpuStep, hf]
  · exact absurd h hrow

/-- `step()` of a CPU that is not paused has a next state: the pause, or a completed instruction. -/
theorem cpuStep_next (s : State) : ∃ t, cpuStep s = .next t := by
  rcases fetch_outcomes s with ⟨hrow, -⟩ | ⟨i, s1, -, hf, -⟩
  · exact ⟨_, cpuStep_unmapped hrow⟩
  · obtain ⟨u, hx, -⟩ := exec_next i s1
    exact ⟨_, cpuStep_of_fetch hf hx⟩

/-- A host move stops the machine where it is `step()` of a paused CPU, and has a next state everywhere else. -/
theorem hostMove_outcomes (m : HostMove) (s : State) :
    (m = .step ∧ s.paused = true ∧ hostMove m s = .fault .stepWhilePaused) ∨
      (¬(m = .step ∧ s.paused = true) ∧ ∃ t, hostMove m s = .next t) := by
  cases m
  case step =>
    cases hp : s.paused
    · exact .inr ⟨by simp, by simpa [hostMove, hp] using cpuStep_next s⟩
    · exact .inl ⟨rfl, rfl, by simp [hostMove, hp]⟩
  case stepUnlessPaused =>
    refine .inr ⟨by simp, ?_⟩
    cases hp : s.paused
    · simpa [hostMove, hp] using cpuStep_next s
    · exact ⟨s.returns .nothing, by simp [hostMove, hp]⟩
  all_goals exact .inr ⟨by simp, _, rfl⟩

/-- Settles O7: a step is one host move (`step_eq_hostMove`), which stops in one case only (`hostMove_outcomes`). -/
theorem stopsOnlySteppingWhilePaused : Obligations.StopsOnlySteppingWhilePaused := by
  unfold Obligations.StopsOnlySteppingWhilePaused
  intro s
  rw [step_eq_hostMove, ← headD_step_iff]
  rcases hostMove_outcomes (s.script.headD .step) { s with script := s.script.tail } with
    ⟨hm, hp, hfault⟩ | ⟨hne, t, hnext⟩
  · exact ⟨iff_of_true hfault ⟨hp, hm⟩, fun h => absurd hfault h⟩
  · refine ⟨iff_of_false ?_ fun h => hne ⟨h.2, h.1⟩, fun _ => ⟨t, hnext⟩⟩
    rw [hnext]
    nofun

/-- Settles O6: the step is the pause after one bus read (`cpuStep_unmapped`), and a bus read changes only devices. -/
theorem unmappedOpcodePauses : Obligations.UnmappedOpcodePauses := by
  unfold Obligations.UnmappedOpcodePauses
  intro s hscript hpaused hop
  refine ⟨_, (step_of_ready hscript hpaused).trans (cpuStep_unmapped ((tableRow_none_iff _).mpr hop)), rfl, ?reason,
    rfl, ?cycles, ?a, ?x, ?y, ?sp, ?p, ?pc, ?sets, ?memory, ⟨rfl, rfl, rfl, rfl, rfl⟩, ?watch, rfl⟩
  case reason | cycles | a | x | y | sp | p | pc | watch => simp [State.unmappedPause]
  case sets => simp [KeepsSets, State.unmappedPause]
  case memory => exact State.cellByte_congr (busRead_ram _ s) (busRead_cartRam _ s) (busRead_prgRom _ s)

/-! ## The end of a step (60_exceptions R300, R314 to R316) -/

/-- The watchpoint pause, field by field. -/
theorem State.watchPause_eq (s : State) :
    s.watchPause =
      { s with
        paused := s.paused || s.watchHit.isSome
        pauseReason := s.watchHit.elim s.pauseReason fun w => some (.watchpoint w.1 w.2)
        watchHit := none } := by
  unfold State.watchPause
  split
  · rename_i h
    simp only [h, Option.isSome_none, Bool.or_false, Option.elim_none]
    rw [← h]
  · rename_i h
    simp only [h, State.pause, Option.isSome_some, Bool.or_true, Option.elim_some]

/-- The breakpoint pause, field by field. -/
theorem State.breakPause_eq (s : State) :
    s.breakPause =
      { s with
        paused := s.paused || decide (s.pc.toNat ∈ s.breakpoints)
        pauseReason := if s.pc.toNat ∈ s.breakpoints then some (.breakpoint s.pc) else s.pauseReason } := by
  unfold State.breakPause
  split <;> simp [State.pause, *]

/-- The end of a step, field by field: only the pause, the log and the watchpoint note change. -/
theorem State.finish_eq (s : State) (e : LogEntry) :
    s.finish e =
      { s with
        paused := s.paused || s.watchHit.isSome || decide (s.pc.toNat ∈ s.breakpoints)
        pauseReason := if s.pc.toNat ∈ s.breakpoints then some (.breakpoint s.pc) else
          s.watchHit.elim s.pauseReason fun w => some (.watchpoint w.1 w.2)
        stepLog := (s.appendLog e).stepLog
        watchHit := none } := by
  rw [State.finish, State.breakPause_eq, State.watchPause_eq]
  rfl

/-- What an instruction charges and returns is not the host's. -/
theorem keepsHost_freeOfResult (s : State) : FreeOfResult (KeepsHost s) := fun _ _ _ h => h

/-- The fetch and the instruction of a step leave the parameters. -/
theorem fetchExec_params {s s1 u : State} {i : Instr} {e : LogEntry} (hf : fetch s = (.instr i e, s1))
    (hx : exec i s1 = .next u) : u.params = s.params := by
  have hclosed := busClosed_keepsHost s
  have h1 : KeepsHost s s1 := by simpa only [hf] using hclosed.fetch s (KeepsHost.refl s)
  obtain ⟨-, -, -, -, -, -, -, -, -, -, hparams, -⟩ := hclosed.exec (keepsHost_freeOfResult s) i s1 u hx h1
  exact hparams

/-- Settles O38: the step is the instruction and the end of the step, whose fields are said once (`State.finish_eq`). -/
theorem endOfStepLogsAndPauses : Obligations.EndOfStepLogsAndPauses := by
  unfold Obligations.EndOfStepLogsAndPauses
  intro s s1 u i e hscript hpaused hf hx
  have hparams : u.params = s.params := fetchExec_params hf hx
  refine ⟨_, (step_of_ready hscript hpaused).trans (cpuStep_of_fetch hf hx), ?_⟩
  rw [State.finish_eq, State.appendLog_stepLog]
  refine ⟨rfl, ?reason, ?length, List.drop_suffix _ _, rfl⟩
  case reason => cases u.watchHit <;> rfl
  case length =>
    simp only [List.length_drop, List.length_append, List.length_singleton, hparams]
    omega

/-! ## Interrupt entries (60_exceptions R303 to R305) -/

/-- An accepted entry leaves what is the host's. -/
theorem hardwareEntry_keepsHost (vec : Addr) (s : State) : KeepsHost s (hardwareEntry vec s) :=
  (busClosed_keepsHost s).hardwareEntry (keepsHost_freeOfResult s) vec s (KeepsHost.refl s)

/-- What `nmi()` does besides the entry: the pause where its breakpoint is enabled (60_exceptions R303). -/
theorem nmiEntry_eq (s : State) :
    nmiEntry s =
      { hardwareEntry Config.vecNmi s with
        paused := s.paused || s.bpNmi
        pauseReason := if s.bpNmi = true then some .nmiBreakpoint else s.pauseReason
        result := .nothing } := by
  obtain ⟨hpaused, hreason, -, hbp, -⟩ := hardwareEntry_keepsHost Config.vecNmi s
  unfold nmiEntry
  dsimp only
  rw [hbp]
  cases s.bpNmi <;> simp [State.pause, ← hpaused, ← hreason]

/-- Settles O35: `nmi()` is an entry (`nmiEntry_entersThrough`), which keeps what is the host's, and the pause of its
breakpoint (`nmiEntry_eq`). -/
theorem nmiEntry_spec : Obligations.NmiEntry := by
  unfold Obligations.NmiEntry
  intro s
  obtain ⟨-, -, hbps, hbp, hrw, hww, hlog, hprg, hchr, hboard, hparams, hscript⟩ :=
    hardwareEntry_keepsHost Config.vecNmi s
  refine ⟨_, rfl, nmiEntry_entersThrough s, ?_⟩
  rw [nmiEntry_eq]
  exact ⟨⟨hbps, hbp, hrw, hww, hlog, hprg, hchr, hboard, hparams, hscript⟩, rfl, rfl, rfl,
    hardwareEntry_watchHit Config.vecNmi s⟩

/-- `requestIrq()` while I is set is refused and not remembered (60_exceptions R304). -/
theorem requestIrq_refused {s : State} (h : getFlag s.p .i = true) :
    requestIrq s = { s with result := .accepted false } := by
  rw [requestIrq, if_pos h]

/-- `requestIrq()` while I is clear is an entry through the IRQ vector (60_exceptions R304). -/
theorem requestIrq_accepted {s : State} (h : getFlag s.p .i = false) :
    requestIrq s = { hardwareEntry Config.vecIrq s with result := .accepted true } := by
  rw [requestIrq, if_neg (h ▸ Bool.false_ne_true)]

/-- Every entry sets I. -/
theorem EntersThrough.getFlag_i {vec ret : Addr} {status : Byte} {s t : State}
    (h : EntersThrough vec ret status s t) : getFlag t.p .i = true := by
  obtain ⟨-, -, -, -, hflags, -⟩ := h
  exact hflags .i

/-- Settles O36: a request is refused or an entry by I alone, and the entry of an NMI sets I. -/
theorem irqRequest : Obligations.IrqRequest := by
  unfold Obligations.IrqRequest
  intro s
  refine ⟨fun hi => congrArg Host.Outcome.next (requestIrq_refused hi), fun hi => ?accepted, fun t ht => ?afterNmi⟩
  case accepted =>
    refine ⟨_, rfl, requestIrq_entersThrough hi, ?_, ?_, requestIrq_watchHit s⟩ <;> rw [requestIrq_accepted hi]
    exact hardwareEntry_keepsHost Config.vecIrq s
  case afterNmi =>
    cases ht
    exact congrArg Host.Outcome.next (requestIrq_refused (nmiEntry_entersThrough s).getFlag_i)

/-! ## Debug moves (60_exceptions R313, R317) -/

/-- Enabling an address adds it, and it alone, to a set of addresses. -/
theorem AddrSet.mem_insert_addr (a b : Addr) (l : List Nat) :
    b.toNat ∈ AddrSet.insert a.toNat l ↔ b = a ∨ b.toNat ∈ l := by
  rw [AddrSet.mem_insert, BitVec.toNat_inj]

/-- Disabling an address removes it, and it alone, from a set in its one form. -/
theorem AddrSet.mem_erase_addr (a b : Addr) {l : List Nat} (h : AddrSet.wf l = true) :
    b.toNat ∈ AddrSet.erase a.toNat l ↔ b ≠ a ∧ b.toNat ∈ l := by
  rw [AddrSet.mem_erase l _ _ h, Ne, BitVec.toNat_inj]

/-- Settles O42: each move is its update of one field, and the sets' updates are insertion and removal
(`AddrSet.mem_insert_addr`, `AddrSet.mem_erase_addr`). -/
theorem debugMovesAndResume : Obligations.DebugMovesAndResume := by
  unfold Obligations.DebugMovesAndResume
  intro a b n s
  have hadd (l : List Nat) := AddrSet.mem_insert_addr a b l
  have hdrop (l : List Nat) (h : AddrSet.wf l = true) := AddrSet.mem_erase_addr a b h
  refine ⟨⟨_, rfl, rfl, hadd _⟩, ⟨_, rfl, rfl, hdrop _⟩, rfl, rfl, rfl, ⟨_, rfl, rfl, hadd _⟩, ⟨_, rfl, rfl, hadd _⟩,
    ⟨_, rfl, rfl, hdrop _⟩, ⟨_, rfl, rfl, hdrop _⟩, ⟨_, rfl, List.drop_suffix _ _, ?log⟩, rfl⟩
  case log =>
    rw [recentLog, List.length_drop]
    omega

/-! ## Delivery and boundaries (60_exceptions R306, R308) -/

/-- What the move before returned plays no part in a hardware entry: neither the stack nor the bus sees it. -/
theorem hardwareEntry_returns (vec : Addr) (s : State) (r : HostResult) :
    hardwareEntry vec (s.returns r) = (hardwareEntry vec s).returns r := by
  have hpush (w : Addr) (v : Byte) : push v (pushWord w (s.returns r)) = (push v (pushWord w s)).returns r := by
    simp only [pushWord_eq, push_eq]
    rfl
  have hread (t : State) : busRead16 vec (t.returns r) = ((busRead16 vec t).1, (busRead16 vec t).2.returns r) := by
    have hr := busRead16_reframe vec t (t.returns r)
    rw [busRead16_sameButDevices vec t] at hr ⊢
    exact hr
  simp only [hardwareEntry, enterInterrupt_fields, State.returns_pc, State.returns_p, hpush, hread]
  rfl

/-- What the move before returned plays no part in a request. -/
theorem requestIrq_returns (s : State) (r : HostResult) : requestIrq (s.returns r) = requestIrq s := by
  cases hi : getFlag s.p .i
  · rw [requestIrq_accepted hi, requestIrq_accepted (s := s.returns r) hi, hardwareEntry_returns]
    rfl
  · rw [requestIrq_refused hi, requestIrq_refused (s := s.returns r) hi]
    rfl

/-- The LEVEL policy. -/
theorem deliverIrq_level {s : State} (h : s.params.irqDelivery = .level) :
    deliverIrq s = if s.irqAsserted then requestIrq s else s := by
  simp only [deliverIrq, h]

/-- The EDGE_ONCE policy. -/
theorem deliverIrq_edgeOnce {s : State} (h : s.params.irqDelivery = .edgeOnce) :
    deliverIrq s = if s.irqTrigger then requestIrq { s with irqTrigger := false } else s := by
  simp only [deliverIrq, h]

/-- Any other policy is the script's own calls. -/
theorem deliverIrq_scripted {s : State} (h : s.params.irqDelivery = .scripted) : deliverIrq s = s := by
  simp only [deliverIrq, h]

/-- Settles O43: the delivery is the policy's request, in which the cleared result plays no part (`requestIrq_returns`);
the moves of a boundary are read off their list. -/
theorem deliveryAndBoundaryOrder : Obligations.DeliveryAndBoundaryOrder := by
  unfold Obligations.DeliveryAndBoundaryOrder
  intro n s
  have hdeliver : hostMove .deliverIrq s = .next (deliverIrq (s.returns .nothing)) := rfl
  refine ⟨fun hpolicy => ⟨fun hline => ?asserted, fun hframe hdmc hmapper => ?quiet⟩,
    fun hpolicy => ⟨fun ht => ?triggered, fun ht => ?idle⟩, rfl, rfl, rfl, rfl, fun hp => if_pos hp, fun hp => ?running⟩
  case asserted =>
    have hasserted : (s.returns .nothing).irqAsserted = true := by simpa [State.irqAsserted, or_assoc] using hline
    rw [hdeliver, deliverIrq_level (s := s.returns .nothing) hpolicy, if_pos hasserted, requestIrq_returns]
    rfl
  case quiet =>
    have hquiet : (s.returns .nothing).irqAsserted = false := by simp [State.irqAsserted, hframe, hdmc, hmapper]
    rw [hdeliver, deliverIrq_level (s := s.returns .nothing) hpolicy, hquiet]
    rfl
  case triggered =>
    rw [hdeliver, deliverIrq_edgeOnce (s := s.returns .nothing) hpolicy, State.returns_irqTrigger, if_pos ht]
    exact congrArg Host.Outcome.next (requestIrq_returns { s with irqTrigger := false } .nothing)
  case idle =>
    rw [hdeliver, deliverIrq_edgeOnce (s := s.returns .nothing) hpolicy, State.returns_irqTrigger,
      if_neg (ht ▸ Bool.false_ne_true)]
    rfl
  case running => simp [hostMove, hp]

/-! ## Debug state is invisible (60_exceptions R318)

Clearing the debug state commutes with everything an instruction, an entry and a reset are made of, the note of a
watched access included: without watchpoints there is none. The end of a step and the debug moves write debug state
alone. -/

@[simp] theorem busRead_withoutDebug (a : Addr) (s : State) :
    busRead a s.withoutDebug = ((busRead a s).1, (busRead a s).2.withoutDebug) := by
  have hs : s.withoutDebug = s.reframe s.withoutDebug := rfl
  rw [hs, busRead_reframe, busRead_sameButDevices a s]
  rfl

@[simp] theorem busWrite_withoutDebug (a : Addr) (v : Byte) (s : State) :
    busWrite a v s.withoutDebug = (busWrite a v s).withoutDebug := by
  have hs : s.withoutDebug = s.reframe s.withoutDebug := rfl
  rw [hs, busWrite_reframe, busWrite_sameButStored a v s]
  rfl

@[simp] theorem busRead16_withoutDebug (a : Addr) (s : State) :
    busRead16 a s.withoutDebug = ((busRead16 a s).1, (busRead16 a s).2.withoutDebug) := by
  simp [busRead16]

@[simp] theorem push_withoutDebug (v : Byte) (s : State) : push v s.withoutDebug = (push v s).withoutDebug := by
  rw [push_eq, push_eq]
  rfl

@[simp] theorem pushWord_withoutDebug (w : Addr) (s : State) :
    pushWord w s.withoutDebug = (pushWord w s).withoutDebug := by
  simp [pushWord]

/-- Without watchpoints an access is not noted, and a note is debug state. -/
@[simp] theorem noteAccess_withoutDebug (s : State) (a : Addr) (k : Access) :
    s.withoutDebug.noteAccess a k = (s.noteAccess a k).withoutDebug := by
  rw [noteAccess_eq, noteAccess_eq]
  cases k <;> simp [State.withoutDebug, State.watchSet]

@[simp] theorem loadOperand_withoutDebug (o : Operand) (ea : Option Addr) (s : State) :
    loadOperand o ea s.withoutDebug = ((loadOperand o ea s).1, (loadOperand o ea s).2.withoutDebug) := by
  have hread (a : Addr) : dataRead a s.withoutDebug = ((dataRead a s).1, (dataRead a s).2.withoutDebug) := by
    simp [dataRead]
  cases ea with
  | none => cases o <;> rfl
  | some a =>
    cases o with
    | imm | acc => rfl
    | imp | zp | zpx | zpy | abs | absx | absy | indx | indy | ind | rel => exact hread a

@[simp] theorem storeOperand_withoutDebug (o : Operand) (ea : Option Addr) (v : Byte) (s : State) :
    storeOperand o ea v s.withoutDebug = (storeOperand o ea v s).withoutDebug := by
  have hwrite (a : Addr) : dataWrite a v s.withoutDebug = (dataWrite a v s).withoutDebug := by simp [dataWrite]
  cases ea with
  | none => cases o <;> rfl
  | some a =>
    cases o with
    | acc => rfl
    | imp | imm | zp | zpx | zpy | abs | absx | absy | indx | indy | ind | rel => exact hwrite a

@[simp] theorem addressed_withoutDebug (o : Operand) (s : State) :
    addressed o s.withoutDebug = ((addressed o s).1, (addressed o s).2.withoutDebug) := by
  have hadvance : s.withoutDebug.advance o = (s.advance o).withoutDebug := rfl
  unfold addressed
  rw [hadvance]
  generalize s.advance o = t
  cases o with
  | indx b => simp only [resolve, zeroPagePointer_eq]; rfl
  | indy b => simp only [resolve, zeroPagePointer_eq]; rfl
  | ind w => simp [resolve, jumpPointer]
  | imp | acc | imm | zp | zpx | zpy | abs | absx | absy | rel => rfl

@[simp] theorem enterInterrupt_withoutDebug (vec ret : Addr) (status : Byte) (s : State) :
    enterInterrupt vec ret status s.withoutDebug = (enterInterrupt vec ret status s).withoutDebug := by
  simp only [enterInterrupt_fields, pushWord_withoutDebug, push_withoutDebug, busRead16_withoutDebug]
  rfl

@[simp] theorem modifyBody_withoutDebug (f : Byte → Byte → Byte × Byte) (o : Operand) (ea : Option Addr) (s : State) :
    modifyBody f o ea s.withoutDebug = (modifyBody f o ea s).withoutDebug := by
  have hp (t : State) : t.withoutDebug.p = t.p := rfl
  simp only [modifyBody, loadOperand_withoutDebug, storeOperand_withoutDebug, hp]
  rfl

/-- No execute phase reads debug state. -/
@[simp] theorem phase_withoutDebug (op : Op) (o : Operand) (ea : Option Addr) (s : State) :
    phase op o ea s.withoutDebug = (phase op o ea s).withoutDebug := by
  cases op
  case lda | ldx | ldy | and | ora | eor | bit | adc | sbc | cmp | cpx | cpy =>
    simp only [phase, loadOperand_withoutDebug]
    rfl
  case sta | stx | sty => exact storeOperand_withoutDebug _ _ _ _
  case inc | dec | asl | lsr | rol | ror => exact modifyBody_withoutDebug _ _ _ _
  case pha | php => exact push_withoutDebug _ _
  case pla => simp only [phase, pullA_eq]; rfl
  case plp => simp only [phase, pullP_eq]; rfl
  case rts => simp only [phase, rtsBody_eq]; rfl
  case rti => simp only [phase, returnFromInterrupt_eq]; rfl
  case brk => exact enterInterrupt_withoutDebug Config.vecIrq (s.pc + 1) (pushedWithBreak s.p) s
  case jmp => cases ea <;> rfl
  case jsr => cases ea <;> simp only [phase, jsrBody, pushWord_eq] <;> rfl
  all_goals rfl

/-- An instruction runs alike without the debug state. -/
theorem exec_withoutDebug {i : Instr} {s t : State} (h : exec i s = .next t) :
    exec i s.withoutDebug = .next t.withoutDebug := by
  have hcycles : tableCycles i s.withoutDebug = tableCycles i s := by
    simp only [tableCycles, addressed_withoutDebug]
  cases hc : branchCond i.op s.p with
  | none =>
    rw [exec_phase i s hc] at h
    cases h
    rw [exec_phase i s.withoutDebug hc, hcycles]
    simp only [effAddr, addressedState, addressed_withoutDebug, phase_withoutDebug]
    rfl
  | some c =>
    obtain ⟨d, ho, he⟩ := exec_branch i s c hc
    obtain ⟨d', ho', he'⟩ := exec_branch i s.withoutDebug c hc
    obtain rfl : d = d' := Operand.rel.inj (ho.symm.trans ho')
    rw [he] at h
    rw [he']
    cases c <;> cases h <;> rfl

@[simp] theorem fetchOperand_withoutDebug (pc0 : Addr) (k l : Nat) (s : State) :
    fetchOperand pc0 k l s.withoutDebug = ((fetchOperand pc0 k l s).1, (fetchOperand pc0 k l s).2.withoutDebug) := by
  unfold fetchOperand
  split
  · simp only [busRead_withoutDebug]
  · rfl

/-- A fetch finds the same without the debug state. -/
@[simp] theorem fetch_withoutDebug (s : State) :
    fetch s.withoutDebug = ((fetch s).1, (fetch s).2.withoutDebug) := by
  have hpc : s.withoutDebug.pc = s.pc := rfl
  unfold fetch
  simp only [hpc, busRead_withoutDebug, fetchOperand_withoutDebug]
  split
  · rfl
  · split <;> rfl

/-- The end of a step writes debug state alone. -/
theorem finish_withoutDebug (s : State) (e : LogEntry) : (s.finish e).withoutDebug = s.withoutDebug := by
  rw [State.finish_eq]
  rfl

/-- Two answers that go on, with states that differ in debug state alone. -/
def AgreeButDebug (x y : Answer) : Prop :=
  ∃ t t', x = .next t ∧ y = .next t' ∧ t.withoutDebug = t'.withoutDebug

/-- `step()` of a CPU that is not paused reads no debug state (30_encoding R101, 60_exceptions R318). -/
theorem cpuStep_agrees {s s' : State} (h : s.withoutDebug = s'.withoutDebug) :
    AgreeButDebug (cpuStep s) (cpuStep s') := by
  have hfetch : ((fetch s).1, (fetch s).2.withoutDebug) = ((fetch s').1, (fetch s').2.withoutDebug) := by
    rw [← fetch_withoutDebug, h, fetch_withoutDebug]
  obtain ⟨hfound, hstate⟩ := Prod.mk.inj hfetch
  rcases hs : fetch s with ⟨found, s1⟩
  rcases hs' : fetch s' with ⟨found', s1'⟩
  rw [hs, hs'] at hfound hstate
  obtain rfl : found = found' := hfound
  cases found with
  | unmapped op =>
    refine ⟨s1.unmappedPause op, s1'.unmappedPause op, by simp only [cpuStep, hs], by simp only [cpuStep, hs'], ?_⟩
    exact congrArg (·.returns (.cycles 0)) hstate
  | instr i e =>
    obtain ⟨u, hx, -⟩ := exec_next i s1
    obtain ⟨u', hx', -⟩ := exec_next i s1'
    refine ⟨_, _, cpuStep_of_fetch hs hx, cpuStep_of_fetch hs' hx', ?_⟩
    have hxw := exec_withoutDebug hx
    rw [hstate, exec_withoutDebug hx'] at hxw
    rw [finish_withoutDebug, finish_withoutDebug]
    exact (Host.Outcome.next.inj hxw).symm

/-! ### The moves -/

@[simp] theorem hardwareEntry_withoutDebug (vec : Addr) (s : State) :
    hardwareEntry vec s.withoutDebug = (hardwareEntry vec s).withoutDebug :=
  congrArg (fun t : State => { t with cycles := t.cycles + t.params.interruptCycles })
    (enterInterrupt_withoutDebug vec s.pc (pushedByInterrupt s.p) s)

@[simp] theorem requestIrq_withoutDebug (s : State) : requestIrq s.withoutDebug = (requestIrq s).withoutDebug := by
  cases hi : getFlag s.p .i
  · rw [requestIrq_accepted hi, requestIrq_accepted (s := s.withoutDebug) hi, hardwareEntry_withoutDebug]
    rfl
  · rw [requestIrq_refused hi, requestIrq_refused (s := s.withoutDebug) hi]
    rfl

@[simp] theorem nmiEntry_withoutDebug (s : State) : nmiEntry s.withoutDebug = (nmiEntry s).withoutDebug := by
  rw [nmiEntry_eq, nmiEntry_eq, hardwareEntry_withoutDebug]
  simp [State.withoutDebug]

theorem setMapper_withoutDebug (s : State) (m : MapperState) :
    s.withoutDebug.setMapper m = (s.setMapper m).withoutDebug := by
  rw [setMapper_eq, setMapper_eq]
  rfl

@[simp] theorem cpuReset_withoutDebug (s : State) : cpuReset s.withoutDebug = (cpuReset s).withoutDebug := by
  rw [cpuReset_eq, cpuReset_eq, busRead16_withoutDebug]
  rfl

theorem systemReset_withoutDebug (s : State) : systemReset s.withoutDebug = (systemReset s).withoutDebug := by
  have hapu (m : MapperState) : apuReset (s.withoutDebug.setMapper m) = (apuReset (s.setMapper m)).withoutDebug :=
    congrArg apuReset (setMapper_withoutDebug s m)
  unfold systemReset
  rw [hapu, cpuReset_withoutDebug]
  rfl

theorem onHblank_withoutDebug (n : Nat) (s : State) : onHblank n s.withoutDebug = (onHblank n s).withoutDebug := by
  rw [onHblank_eq, onHblank_eq]
  rfl

theorem cpuLoad_withoutDebug (l : CpuSnapshot) (s : State) : cpuLoad l s.withoutDebug = (cpuLoad l s).withoutDebug := by
  unfold cpuLoad
  split <;> rfl

theorem apuLoad_withoutDebug (m : List Byte) (s : State) : apuLoad m s.withoutDebug = (apuLoad m s).withoutDebug := by
  unfold apuLoad
  split <;> rfl

theorem deliverIrq_withoutDebug (s : State) : deliverIrq s.withoutDebug = (deliverIrq s).withoutDebug := by
  cases hpolicy : s.params.irqDelivery
  case level =>
    rw [deliverIrq_level hpolicy, deliverIrq_level (s := s.withoutDebug) hpolicy, apply_ite State.withoutDebug,
      requestIrq_withoutDebug]
    rfl
  case edgeOnce =>
    rw [deliverIrq_edgeOnce hpolicy, deliverIrq_edgeOnce (s := s.withoutDebug) hpolicy, apply_ite State.withoutDebug,
      ← requestIrq_withoutDebug]
    rfl
  case scripted => rw [deliverIrq_scripted hpolicy, deliverIrq_scripted (s := s.withoutDebug) hpolicy]

/-- A move that commutes with clearing the debug state reads none. -/
theorem AgreeButDebug.of_commutes {f : State → State} (hf : ∀ s, f s.withoutDebug = (f s).withoutDebug) {s s' : State}
    (h : s.withoutDebug = s'.withoutDebug) : AgreeButDebug (.next (f s)) (.next (f s')) :=
  ⟨_, _, rfl, rfl, by rw [← hf, h, hf]⟩

theorem AgreeButDebug.returns {t t' : State} (h : AgreeButDebug (.next t) (.next t')) (r : HostResult) :
    AgreeButDebug (.next (t.returns r)) (.next (t'.returns r)) := by
  obtain ⟨u, u', hu, hu', he⟩ := h
  cases hu
  cases hu'
  exact ⟨_, _, rfl, rfl, congrArg (·.returns r) he⟩

/-- The same move of two states that differ in debug state alone, both paused or both not: both stop, or both answer and
agree. `step_log(N)` returns debug state and is left out (60_exceptions R318). -/
theorem hostMove_agrees (m : HostMove) (hm : ∀ n, m ≠ .stepLog n) {s s' : State}
    (h : s.withoutDebug = s'.withoutDebug) (hp : s.paused = s'.paused) :
    (hostMove m s = .fault .stepWhilePaused ∧ hostMove m s' = .fault .stepWhilePaused) ∨
      AgreeButDebug (hostMove m s) (hostMove m s') := by
  have hsame : AgreeButDebug (.next (s.returns .nothing)) (.next (s'.returns .nothing)) :=
    ⟨_, _, rfl, rfl, congrArg (·.returns .nothing) h⟩
  cases m
  case step =>
    simp only [hostMove, hp]
    split
    · exact .inl ⟨rfl, rfl⟩
    · exact .inr (cpuStep_agrees h)
  all_goals right
  case stepUnlessPaused =>
    simp only [hostMove, hp]
    split
    · exact hsame
    · exact cpuStep_agrees h
  case stepLog n => exact absurd rfl (hm n)
  case nmi => exact .of_commutes nmiEntry_withoutDebug h
  case requestIrq => exact .of_commutes requestIrq_withoutDebug h
  case onHblank n => exact .returns (.of_commutes (onHblank_withoutDebug n) h) .nothing
  case cpuReset => exact .returns (.of_commutes cpuReset_withoutDebug h) .nothing
  case apuReset => exact .returns (.of_commutes (f := apuReset) (fun _ => rfl) h) .nothing
  case systemReset => exact .returns (.of_commutes systemReset_withoutDebug h) .nothing
  case cpuLoad l => exact .of_commutes (cpuLoad_withoutDebug l) h
  case apuLoad l => exact .of_commutes (apuLoad_withoutDebug l) h
  case deliverIrq =>
    exact .of_commutes (f := fun t => deliverIrq (t.returns .nothing))
      (fun t => deliverIrq_withoutDebug (t.returns .nothing)) h
  case setStatus i mask =>
    exact .of_commutes (f := fun t => { t with apu := t.apu.setStatus i mask, result := .nothing }) (fun _ => rfl) h
  case cpuSave => exact .of_commutes (f := fun t => t.returns (.cpuSnapshot (cpuSnapshot t))) (fun _ => rfl) h
  case apuSave => exact .of_commutes (f := fun t => t.returns (.apuSnapshot t.apu.regs.toList)) (fun _ => rfl) h
  case boundary hb nmi =>
    exact .of_commutes (f := fun t => { t with script := boundaryMoves hb nmi ++ t.script, result := .nothing })
      (fun _ => rfl) h
  case bpEnable | bpDisable | bpEnableNmi | bpDisableNmi | bpClearAll | resume =>
    exact ⟨_, _, rfl, rfl, congrArg (·.returns .nothing) h⟩
  case wpEnable a k | wpDisable a k => cases k <;> exact ⟨_, _, rfl, rfl, congrArg (·.returns .nothing) h⟩

/-- Settles O41: a step is one host move, and no move but `step_log` reads debug state (`hostMove_agrees`). -/
theorem debugStateHasNoEffect : Obligations.DebugStateHasNoEffect := by
  unfold Obligations.DebugStateHasNoEffect
  intro s s' h hp hlog
  have hscript : s.script = s'.script := (congrArg State.script h :)
  rw [step_eq_hostMove, step_eq_hostMove s', ← hscript]
  refine hostMove_agrees _ (fun n hm => ?_) (congrArg (fun t : State => { t with script := s.script.tail }) h :) hp
  cases hs : s.script with
  | nil => rw [hs] at hm; cases hm
  | cons m rest =>
    rw [hs] at hm
    exact hlog n (by rw [hs]; exact congrArg some hm)

end Sys2Proof.Machine

/-! # Family 70_reset_and_hazards: `cpu.reset()`, `apu.reset()`, save and load

The resets follow from what they do to every field. A CPU snapshot is well formed exactly when it gives registers
(`snapshotOk_iff_snapRegisters`), by which `cpu.load` decides. -/

namespace Sys2Proof.Machine

/-! ## `cpu.reset()` (70_reset_and_hazards R330, R331) -/

/-- What a reset of the CPU leaves, field by field: the vector's two reads change devices only. -/
theorem cpuReset_fields (s : State) :
    cpuReset s =
      { s with
        p := 0x34#8
        sp := s.sp - 3
        pc := (busRead16 Config.vecReset s).1
        stepLog := []
        apu := (busRead16 Config.vecReset s).2.apu
        mapper := (busRead16 Config.vecReset s).2.mapper
        events := (busRead16 Config.vecReset s).2.events
        irqTrigger := (busRead16 Config.vecReset s).2.irqTrigger
        draws := (busRead16 Config.vecReset s).2.draws } := by
  rw [cpuReset_eq, busRead16_sameButDevices Config.vecReset s]

/-- Settles O44: what a reset leaves in every field (`cpuReset_fields`); on NROM the vector's reads are the word in PRG
ROM and change nothing (`busRead16_vecReset_nrom`). -/
theorem cpuReset_spec : Obligations.CpuReset := by
  unfold Obligations.CpuReset
  intro s
  refine ⟨_, congrArg (fun t : State => Host.Outcome.next (t.returns .nothing)) (cpuReset_fields s), ?_⟩
  refine ⟨rfl, rfl, rfl, rfl, rfl, rfl, rfl, rfl, rfl, rfl, rfl, rfl, rfl, State.cellByte_congr rfl rfl rfl, rfl, rfl,
    rfl, rfl, ⟨rfl, rfl, rfl, rfl, rfl⟩, rfl, rfl, ?_⟩
  intro size hboard
  have hvector := busRead16_vecReset_nrom s size hboard
  exact ⟨⟨congrArg (·.2.apu) hvector, congrArg (·.2.mapper) hvector, congrArg (·.2.events) hvector,
    congrArg (·.2.irqTrigger) hvector, congrArg (·.2.draws) hvector⟩, congrArg (·.1) hvector⟩

/-! ## `apu.reset()` (70_reset_and_hazards R332, 50_apu R288) -/

/-- The mirror after `apu.reset()` (70_reset_and_hazards R332). -/
theorem Apu.reg_reset (u : Apu) (j : BitVec 5) : u.reset.reg j = if j = 0x17 then 0x40#8 else 0#8 := by
  have hidx : 0x17 = j.toNat ↔ j = 0x17 := by
    rw [eq_comm, ← BitVec.toNat_inj]
    rfl
  simp only [Apu.reg, Apu.reset, Vector.getElem_set, Vector.getElem_replicate, hidx]

/-- Settles O45: the mirror is `Apu.reg_reset`; everything else is read off `Apu.reset`. -/
theorem apuReset_spec : Obligations.ApuReset := by
  unfold Obligations.ApuReset
  intro s
  have hpulse (c : Pulse) (hc : c = s.apu.reset.p1 ∨ c = s.apu.reset.p2) : c = .zero := hc.elim id id
  refine ⟨s.apu.reset, rfl, s.apu.reg_reset, rfl, rfl, rfl, rfl, rfl, rfl, ?_, rfl, rfl, rfl, rfl, rfl, rfl, rfl, rfl,
    rfl, rfl, rfl, rfl, rfl⟩
  intro c hc
  rw [hpulse c hc]
  exact ⟨rfl, rfl, rfl, rfl, rfl, rfl⟩

/-! ## `cpu.save()` and `cpu.load` (70_reset_and_hazards R336, R337) -/

theorem mem_of_snapField {l : CpuSnapshot} {f : SnapField} {v : Int} (h : snapField l f = some v) : (f, v) ∈ l := by
  induction l with
  | nil => cases h
  | cons e rest ih =>
    simp only [snapField] at h
    split at h
    next hf =>
      cases h
      exact hf ▸ List.mem_cons_self
    next => exact List.mem_cons_of_mem e (ih h)

/-- Where no field is given twice, the first value of a field is its only one. -/
theorem snapField_of_mem {l : CpuSnapshot} {f : SnapField} {v : Int} (hkeys : (l.map Prod.fst).Nodup) (h : (f, v) ∈ l) :
    snapField l f = some v := by
  induction l with
  | nil => cases h
  | cons e rest ih =>
    obtain ⟨hfresh, hrest⟩ := List.nodup_cons.mp hkeys
    simp only [snapField]
    rcases List.mem_cons.mp h with rfl | hmem
    · exact if_pos rfl
    · have hne : f ≠ e.1 := fun he => hfresh (he ▸ List.mem_map_of_mem hmem)
      rw [if_neg hne, ih hrest hmem]

/-- A snapshot gives a field as a word exactly when its value is the integer of that word. -/
theorem snapBits_eq_some {w : Nat} {l : CpuSnapshot} {f : SnapField} {b : BitVec w} :
    snapBits w l f = some b ↔ snapField l f = some (b.toNat : Int) := by
  have hb : (b.toNat : Int) < 2 ^ w := by exact_mod_cast b.isLt
  unfold snapBits
  cases snapField l f with
  | none => simp
  | some v =>
    dsimp only
    split
    next hv =>
      obtain ⟨n, rfl⟩ := Int.eq_ofNat_of_zero_le hv.1
      have hn : n < 2 ^ w := by exact_mod_cast hv.2
      simp [← BitVec.toNat_inj, Nat.mod_eq_of_lt hn]
    next hv =>
      have hne : v ≠ (b.toNat : Int) := by
        rintro rfl
        exact hv ⟨Int.natCast_nonneg _, hb⟩
      simp [hne]

/-- A snapshot of six entries that gives all six fields gives none twice. -/
theorem snapshotOk.keys_nodup {l : CpuSnapshot} (h : snapshotOk l) : (l.map Prod.fst).Nodup := by
  obtain ⟨hlen, ⟨a, ha, _⟩, ⟨x, hx, _⟩, ⟨y, hy, _⟩, ⟨s, hs, _⟩, ⟨p, hp, _⟩, ⟨pc, hpc, _⟩⟩ := h
  have hfields : [SnapField.a, .x, .y, .s, .p, .pc].Nodup := by decide
  have hgiven : [SnapField.a, .x, .y, .s, .p, .pc] ⊆ l.map Prod.fst := by
    simp only [List.cons_subset, List.nil_subset, and_true]
    exact ⟨List.mem_map_of_mem ha, List.mem_map_of_mem hx, List.mem_map_of_mem hy, List.mem_map_of_mem hs,
      List.mem_map_of_mem hp, List.mem_map_of_mem hpc⟩
  have hperm := (hfields.subperm hgiven).perm_of_length_le (by simp [hlen])
  exact hperm.nodup_iff.mp hfields

theorem snapshotGives_of_snapBits {l : CpuSnapshot} {f : SnapField} {w : Nat} {b : BitVec w}
    (h : snapBits w l f = some b) : snapshotGives l f w :=
  ⟨b.toNat, mem_of_snapField (snapBits_eq_some.mp h), Int.natCast_nonneg _, by exact_mod_cast b.isLt⟩

theorem snapBits_of_snapshotGives {l : CpuSnapshot} {f : SnapField} {w : Nat} (hkeys : (l.map Prod.fst).Nodup)
    (h : snapshotGives l f w) : ∃ b, snapBits w l f = some b := by
  obtain ⟨v, hmem, hbounds⟩ := h
  exact ⟨BitVec.ofInt w v, by simp [snapBits, snapField_of_mem hkeys hmem, hbounds]⟩

/-- The registers of a snapshot: six entries, and a word for each register. -/
theorem snapRegisters_eq_some {l : CpuSnapshot} {a x y sp p : Byte} {pc : Addr} :
    snapRegisters l = some (a, x, y, sp, p, pc) ↔
      l.length = 6 ∧ snapBits 8 l .a = some a ∧ snapBits 8 l .x = some x ∧ snapBits 8 l .y = some y ∧
        snapBits 8 l .s = some sp ∧ snapBits 8 l .p = some p ∧ snapBits 16 l .pc = some pc := by
  unfold snapRegisters
  split
  next hlen =>
    split
    next ha hx hy hs hp hpc => simp [ha, hx, hy, hs, hp, hpc, hlen]
    next hnone =>
      refine iff_of_false nofun ?_
      rintro ⟨-, ha, hx, hy, hs, hp, hpc⟩
      exact hnone _ _ _ _ _ _ ha hx hy hs hp hpc
  next hlen => simp [hlen]

/-- A snapshot is well formed exactly when it gives registers. -/
theorem snapshotOk_iff_snapRegisters {l : CpuSnapshot} :
    snapshotOk l ↔ ∃ a x y sp p pc, snapRegisters l = some (a, x, y, sp, p, pc) := by
  constructor
  · intro h
    have hword {f : SnapField} {w : Nat} := snapBits_of_snapshotGives (f := f) (w := w) h.keys_nodup
    obtain ⟨hlen, ha, hx, hy, hs, hp, hpc⟩ := h
    obtain ⟨a, ha⟩ := hword ha
    obtain ⟨x, hx⟩ := hword hx
    obtain ⟨y, hy⟩ := hword hy
    obtain ⟨sp, hs⟩ := hword hs
    obtain ⟨p, hp⟩ := hword hp
    obtain ⟨pc, hpc⟩ := hword hpc
    exact ⟨a, x, y, sp, p, pc, snapRegisters_eq_some.mpr ⟨hlen, ha, hx, hy, hs, hp, hpc⟩⟩
  · rintro ⟨a, x, y, sp, p, pc, h⟩
    obtain ⟨hlen, ha, hx, hy, hs, hp, hpc⟩ := snapRegisters_eq_some.mp h
    exact ⟨hlen, snapshotGives_of_snapBits ha, snapshotGives_of_snapBits hx, snapshotGives_of_snapBits hy,
      snapshotGives_of_snapBits hs, snapshotGives_of_snapBits hp, snapshotGives_of_snapBits hpc⟩

/-- A saved snapshot gives the registers it was saved from. -/
theorem snapRegisters_cpuSnapshot (s : State) :
    snapRegisters (cpuSnapshot s) = some (s.a, s.x, s.y, s.sp, s.p, s.pc) :=
  snapRegisters_eq_some.mpr ⟨rfl, snapBits_eq_some.mpr rfl, snapBits_eq_some.mpr rfl, snapBits_eq_some.mpr rfl,
    snapBits_eq_some.mpr rfl, snapBits_eq_some.mpr rfl, snapBits_eq_some.mpr rfl⟩

theorem cpuLoad_of_snapRegisters {l : CpuSnapshot} {a x y sp p : Byte} {pc : Addr}
    (h : snapRegisters l = some (a, x, y, sp, p, pc)) (s : State) :
    cpuLoad l s = { s with a := a, x := x, y := y, sp := sp, p := p, pc := pc, result := .nothing } := by
  simp only [cpuLoad, h]

theorem cpuLoad_of_not_snapshotOk {l : CpuSnapshot} (h : ¬ snapshotOk l) (s : State) :
    cpuLoad l s = { s with result := .corruptState } := by
  have hnone : snapRegisters l = none := Option.eq_none_iff_forall_ne_some.mpr
    fun (a, x, y, sp, p, pc) hr => h (snapshotOk_iff_snapRegisters.mpr ⟨a, x, y, sp, p, pc, hr⟩)
  simp only [cpuLoad, hnone]

/-- Settles O53: a saved snapshot gives the registers back (`snapRegisters_cpuSnapshot`); a load goes by whether the
snapshot gives registers, which is its well-formedness (`snapshotOk_iff_snapRegisters`). -/
theorem cpuSaveAndLoad : Obligations.CpuSaveAndLoad := by
  unfold Obligations.CpuSaveAndLoad
  intro s s' l
  refine ⟨⟨cpuSnapshot s, rfl, ?saved, ?roundTrip⟩, ?wellFormed, ?malformed⟩
  case saved => exact snapshotOk_iff_snapRegisters.mpr ⟨_, _, _, _, _, _, snapRegisters_cpuSnapshot s⟩
  case roundTrip => exact congrArg Host.Outcome.next (cpuLoad_of_snapRegisters (snapRegisters_cpuSnapshot s) s')
  case wellFormed =>
    intro hok
    obtain ⟨a, x, y, sp, p, pc, hr⟩ := snapshotOk_iff_snapRegisters.mp hok
    obtain ⟨-, ha, hx, hy, hs, hp, hpc⟩ := snapRegisters_eq_some.mp hr
    have hmem {w : Nat} {f : SnapField} {b : BitVec w} (h : snapBits w l f = some b) : (f, (b.toNat : Int)) ∈ l :=
      mem_of_snapField (snapBits_eq_some.mp h)
    exact ⟨_, congrArg Host.Outcome.next (cpuLoad_of_snapRegisters hr s), rfl, hmem ha, hmem hx, hmem hy, hmem hs,
      hmem hp, hmem hpc⟩
  case malformed => exact fun hbad => congrArg Host.Outcome.next (cpuLoad_of_not_snapshotOk hbad s)

/-! ## `apu.save()` and `apu.load` (70_reset_and_hazards R338, R339) -/

/-- A list of the mirror's bytes has the mirror's byte `j` at place `j`. -/
theorem Apu.getElem?_toList_regs (u : Apu) (j : BitVec 5) : u.regs.toList[j.toNat]? = some (u.reg j) := by
  rw [Apu.reg, List.getElem?_eq_getElem (by simpa using j.isLt), Vector.getElem_toList]

/-- What `apu.load` of 32 bytes leaves: a new APU with those bytes as its mirror and the pads' masks it had, and draws
made (70_reset_and_hazards R339). -/
theorem apuLoad_of_length {m : List Byte} (h : m.length = 32) (s : State) : ∃ u n,
    apuLoad m s = { s with apu := u, draws := n, result := .nothing } ∧ u.regs.toList = m ∧
      u.padStatus0 = s.apu.padStatus0 ∧ u.padStatus1 = s.apu.padStatus1 :=
  ⟨_, _, dif_pos h, rfl, rfl, rfl⟩

theorem apuLoad_of_length_ne {m : List Byte} (h : m.length ≠ 32) (s : State) :
    apuLoad m s = { s with result := .corruptState } := dif_neg h

/-- Settles O54: the snapshot is the mirror as a list (`Apu.getElem?_toList_regs`), and a load goes by its length. -/
theorem apuSaveAndLoad : Obligations.ApuSaveAndLoad := by
  unfold Obligations.ApuSaveAndLoad
  intro s m
  refine ⟨⟨s.apu.regs.toList, rfl, Vector.length_toList, s.apu.getElem?_toList_regs⟩, ?_, ?_⟩
  · intro hlen
    obtain ⟨u, n, hload, hmirror, hpad0, hpad1⟩ := apuLoad_of_length hlen s
    refine ⟨_, congrArg Host.Outcome.next hload, ?_, hpad0, hpad1, rfl⟩
    rw [← hmirror]
    exact u.getElem?_toList_regs
  · exact fun hlen => congrArg Host.Outcome.next (apuLoad_of_length_ne hlen s)

end Sys2Proof.Machine
